-- ==== Sys2Proof/Word.lean ====
section
/-! DEFINITION. The word types of the block and the fixed-size records indexed by motor or sensor. -/

namespace Sys2Proof

/-- One byte of the serial bus or of a frame buffer. -/
abbrev Byte := BitVec 8

/-- A 16-bit register: raw angles, turn counters, raw ADC counts, PWM magnitudes. -/
abbrev W16 := BitVec 16

/-- A 32-bit register: Q16.16 positions and gains, currents in mA, host register words (00_scope.md R14). -/
abbrev W32 := BitVec 32

/-- A transaction word (30_encoding.md R131). -/
abbrev TxnWord := BitVec 64

/-- Two like things, one for each motor (00_scope.md R9: NUM_MOTORS = 2). -/
structure Two (α : Type) where
  a0 : α
  a1 : α
  deriving DecidableEq, Repr

/-- Three like things, one for each sensor or ADC channel (00_scope.md R9: NUM_SENSORS = 3). -/
structure Three (α : Type) where
  a0 : α
  a1 : α
  a2 : α
  deriving DecidableEq, Repr

end Sys2Proof
end

