-- ==== Sys2Proof/Config.lean ====
section
/-! DEFINITION. What an implementation fixes: the device configuration record (its reset contents are a parameter),
the parameters of 00_scope.md R10 and the fixed sizes of R9. -/

namespace Sys2Proof

/-- A gain set, three Q16.16 gains (10_state.md R43). -/
structure Gains where
  kp : W32
  ki : W32
  kd : W32
  deriving DecidableEq, Repr

/-- The device configuration `Mem`, 28 fields (10_state.md R43). -/
structure DevMem where
  ctrlMode  : Byte
  inputMode : Byte
  nodeAddr  : Byte
  posLimEn  : Bool
  posLimInf : Two W32
  posLimSup : Two W32
  currLimit : W16
  gPos      : Gains
  gDefl     : Gains
  gCurr     : Gains
  gDcurr    : Gains
  encOff    : Three W16
  encMult   : Three W32
  maxStiff  : W32
  deriving DecidableEq, Repr

/-- The parameters of the model, one field for each row of 00_scope.md R10 that R9 does not settle, with DERATE_TABLE
(R19) and MEM_AT_RESET (70_reset_and_hazards.md R410). Integers are exact; `Config.valid` (Machine/Params.lean) checks
the ranges. -/
structure Config where
  /-- TICK_HZ, timing only: no rule reads it (40_scheduler.md R189). -/
  tickHz         : Nat
  startMark      : Byte
  broadcastAddr  : Byte
  /-- QUERY_SEQ, the three bytes in the order they are received. -/
  querySeq       : Three Byte
  framesPerDrain : Nat
  rxFifoDepth    : Nat
  calDiv         : Nat
  encShift       : Nat
  encBits        : Nat
  encAccept      : BitVec 16
  pThresh        : Int
  pPreshift      : Nat
  pPostshift     : Nat
  posIntSat      : Int
  currIntSat     : Int
  pwmMax         : Int
  vOfs           : Int
  vGain          : Int
  vSh            : Nat
  iOfs           : Int
  iGain          : Int
  iSh            : Nat
  filtAlpha      : Int
  filtShift      : Nat
  vLo            : Int
  vHi            : Int
  vStep          : Int
  derateTable    : List Byte
  pause1Ticks    : Nat
  pause2Ticks    : Nat
  calKp          : Int
  calKd          : Int
  calStep        : Int
  calCurrThresh  : Int
  regionDefault  : Byte
  regionActive   : Byte
  /-- MEM_AT_RESET: the unspecified contents of Mem after RESET (93_implementation_defined.md U1). -/
  memAtReset     : DevMem
  deriving DecidableEq, Repr

/-- MAX_FRAME, the frame buffer capacity (00_scope.md R9). -/
def maxFrame : Nat := 128

/-- NOISE_LIMIT (00_scope.md R9). -/
def noiseLimit : Nat := 10

/-- TURN, the raw units of one mechanical turn (00_scope.md R10, 43_encoder.md). -/
def turn : Int := 65536

/-- GAIN_FRAC: gains and multipliers are Q16.16 (00_scope.md R10). -/
def gainFrac : Nat := 16

end Sys2Proof
end

