-- ==== Sys2Proof/Syntax.lean ====
section
/-! DEFINITION. The code enumerations of 30_encoding.md and the instructions: one constructor of `Instr` for each row of
spec/opcode_table.json. -/

namespace Sys2Proof

/-- The 14 sequencer positions (30_encoding.md R140). -/
inductive SeqCode where
  | idle | adcStart | drainB | enc | pollC | inputOvr | motor | pollD | adcWait | afe | cal | swap | drain | callback
  deriving DecidableEq, Repr

/-- The five framer states (30_encoding.md R145). -/
inductive FramerCode where
  | waitStart | waitId | waitLength | receive | unload
  deriving DecidableEq, Repr

/-- The six control modes (30_encoding.md R150). -/
inductive ModeCode where
  | position | pwm | current | posCurr | deflection | deflCurr
  deriving DecidableEq, Repr

/-- The two input modes (30_encoding.md R152). -/
inductive InputCode where
  | external | encoder3
  deriving DecidableEq, Repr

/-- The six calibration phases (30_encoding.md R155). -/
inductive CalphCode where
  | stop | start | pause1 | continue1 | pause2 | continue2
  deriving DecidableEq, Repr

/-- One constructor for each row of the opcode table. The first ten are the transactions (30_encoding.md R133), with
their operands as the word holds them; the others are the codes of the SEQ, FRAMER, MODE, INPUT and CALPH formats, whose
operands (`seq_idx`, the received byte) are state. -/
inductive Instr where
  | reset
  | timer
  | rxb (b : Byte)
  | enc (k : Byte) (w : W32)
  | adc (c : Byte) (v : W16)
  | adcdone
  | wr (a : Byte) (v : W32)
  | rd (a : Byte)
  | hdone
  | step
  | seqIdle
  | seqAdcStart
  | seqDrainB
  | seqEnc
  | seqPollC
  | seqInputOvr
  | seqMotor
  | seqPollD
  | seqAdcWait
  | seqAfe
  | seqCal
  | seqSwap
  | seqDrain
  | seqCallback
  | framerWaitStart
  | framerWaitId
  | framerWaitLength
  | framerReceive
  | framerUnload
  | modePosition
  | modePwm
  | modeCurrent
  | modePosCurr
  | modeDeflection
  | modeDeflCurr
  | inputExternal
  | inputEncoder3
  | calphStop
  | calphStart
  | calphPause1
  | calphContinue1
  | calphPause2
  | calphContinue2
  deriving DecidableEq, Repr

end Sys2Proof
end

