-- ==== Sys2Proof/WellFormed.lean ====
section
/-! DEFINITION. The checks a decoded transaction passes beyond the widths of its operands (30_encoding.md R134). -/

namespace Sys2Proof

/-- The sensor index of ENC and the channel index of ADC are 0, 1 or 2; every other operand is any value of its field. -/
def Instr.wellFormed : Instr → Bool
  | .enc k _ => decide (k.toNat ≤ 2)
  | .adc c _ => decide (c.toNat ≤ 2)
  | .reset | .timer | .rxb _ | .adcdone | .wr _ _ | .rd _ | .hdone | .step => true
  | .seqIdle | .seqAdcStart | .seqDrainB | .seqEnc | .seqPollC | .seqInputOvr | .seqMotor => true
  | .seqPollD | .seqAdcWait | .seqAfe | .seqCal | .seqSwap | .seqDrain | .seqCallback => true
  | .framerWaitStart | .framerWaitId | .framerWaitLength | .framerReceive | .framerUnload => true
  | .modePosition | .modePwm | .modeCurrent | .modePosCurr | .modeDeflection | .modeDeflCurr => true
  | .inputExternal | .inputEncoder3 => true
  | .calphStop | .calphStart | .calphPause1 | .calphContinue1 | .calphPause2 | .calphContinue2 => true

end Sys2Proof
end

