-- ==== Sys2Proof/Decode.lean ====
section
/-! DEFINITION. The decoder and the encoder of the six formats (30_encoding.md R130-R155), each total. A word or code the
spec gives no meaning is rejected by name; what the machine then does with it is the step's (47_host_interface.md R373). -/

namespace Sys2Proof

/-- A word or code together with its format (30_encoding.md R130). -/
inductive Encoded where
  | txn (w : TxnWord)
  | seq (c : BitVec 5)
  | framer (c : BitVec 3)
  | mode (c : BitVec 8)
  | input (c : BitVec 8)
  | calph (c : BitVec 3)
  deriving DecidableEq, Repr

/-- Why a word or code is no instruction (30_encoding.md R134, R160). -/
inductive Reject where
  /-- OP is 0x00 or 0x0B..0xFF. -/
  | reservedOp (op : Byte)
  /-- RSV is not 0. -/
  | rsvNotZero
  /-- AI is not 0 where it must be. -/
  | aiNotZero
  /-- DATA, or the part of it above the operand, is not 0 where it must be. -/
  | dataNotZero
  /-- The sensor index of ENC is above 2. -/
  | sensorIndex (k : Byte)
  /-- The channel index of ADC is above 2. -/
  | channelIndex (c : Byte)
  /-- A SEQ code 0x0E..0x1F. -/
  | reservedSeq (c : BitVec 5)
  /-- A FRAMER code 5..7. -/
  | reservedFramer (c : BitVec 3)
  /-- A MODE code 6..255. -/
  | reservedMode (c : BitVec 8)
  /-- An INPUT code other than 0 and 1. -/
  | otherInput (c : BitVec 8)
  /-- A CALPH code 6 or 7. -/
  | reservedCalph (c : BitVec 3)
  deriving DecidableEq, Repr

/-! ### The codes of the enumerations -/

/-- 30_encoding.md R140. -/
def SeqCode.bits : SeqCode → BitVec 5
  | .idle => 0x00
  | .adcStart => 0x01
  | .drainB => 0x02
  | .enc => 0x03
  | .pollC => 0x04
  | .inputOvr => 0x05
  | .motor => 0x06
  | .pollD => 0x07
  | .adcWait => 0x08
  | .afe => 0x09
  | .cal => 0x0A
  | .swap => 0x0B
  | .drain => 0x0C
  | .callback => 0x0D

/-- 30_encoding.md R140; codes 0x0E..0x1F name no position. -/
def seqCodeOf (c : BitVec 5) : Option SeqCode :=
  match c.toNat with
  | 0 => some .idle
  | 1 => some .adcStart
  | 2 => some .drainB
  | 3 => some .enc
  | 4 => some .pollC
  | 5 => some .inputOvr
  | 6 => some .motor
  | 7 => some .pollD
  | 8 => some .adcWait
  | 9 => some .afe
  | 10 => some .cal
  | 11 => some .swap
  | 12 => some .drain
  | 13 => some .callback
  | _ => none

/-- 30_encoding.md R145. -/
def FramerCode.bits : FramerCode → BitVec 3
  | .waitStart => 0
  | .waitId => 1
  | .waitLength => 2
  | .receive => 3
  | .unload => 4

/-- 30_encoding.md R145; codes 5..7 name no state. -/
def framerCodeOf (c : BitVec 3) : Option FramerCode :=
  match c.toNat with
  | 0 => some .waitStart
  | 1 => some .waitId
  | 2 => some .waitLength
  | 3 => some .receive
  | 4 => some .unload
  | _ => none

/-- 30_encoding.md R150. -/
def ModeCode.bits : ModeCode → BitVec 8
  | .position => 0
  | .pwm => 1
  | .current => 2
  | .posCurr => 3
  | .deflection => 4
  | .deflCurr => 5

/-- 30_encoding.md R150; codes 6..255 are reserved. -/
def modeCodeOf (c : BitVec 8) : Option ModeCode :=
  match c.toNat with
  | 0 => some .position
  | 1 => some .pwm
  | 2 => some .current
  | 3 => some .posCurr
  | 4 => some .deflection
  | 5 => some .deflCurr
  | _ => none

/-- 30_encoding.md R152. -/
def InputCode.bits : InputCode → BitVec 8
  | .external => 0
  | .encoder3 => 1

/-- 30_encoding.md R152; every other value acts as EXTERNAL where the block reads it (44_motor_control.md R291). -/
def inputCodeOf (c : BitVec 8) : Option InputCode :=
  match c.toNat with
  | 0 => some .external
  | 1 => some .encoder3
  | _ => none

/-- 30_encoding.md R155. -/
def CalphCode.bits : CalphCode → BitVec 3
  | .stop => 0
  | .start => 1
  | .pause1 => 2
  | .continue1 => 3
  | .pause2 => 4
  | .continue2 => 5

/-- 30_encoding.md R155; codes 6 and 7 name no phase. -/
def calphCodeOf (c : BitVec 3) : Option CalphCode :=
  match c.toNat with
  | 0 => some .stop
  | 1 => some .start
  | 2 => some .pause1
  | 3 => some .continue1
  | 4 => some .pause2
  | 5 => some .continue2
  | _ => none

/-- The micro-operation of a sequencer position, as an instruction (30_encoding.md R140). -/
def SeqCode.instr : SeqCode → Instr
  | .idle => .seqIdle
  | .adcStart => .seqAdcStart
  | .drainB => .seqDrainB
  | .enc => .seqEnc
  | .pollC => .seqPollC
  | .inputOvr => .seqInputOvr
  | .motor => .seqMotor
  | .pollD => .seqPollD
  | .adcWait => .seqAdcWait
  | .afe => .seqAfe
  | .cal => .seqCal
  | .swap => .seqSwap
  | .drain => .seqDrain
  | .callback => .seqCallback

/-- The byte step of a framer state, as an instruction (30_encoding.md R145). -/
def FramerCode.instr : FramerCode → Instr
  | .waitStart => .framerWaitStart
  | .waitId => .framerWaitId
  | .waitLength => .framerWaitLength
  | .receive => .framerReceive
  | .unload => .framerUnload

/-- The motor step of a control mode, as an instruction (30_encoding.md R150). -/
def ModeCode.instr : ModeCode → Instr
  | .position => .modePosition
  | .pwm => .modePwm
  | .current => .modeCurrent
  | .posCurr => .modePosCurr
  | .deflection => .modeDeflection
  | .deflCurr => .modeDeflCurr

/-- The input override of an input mode, as an instruction (30_encoding.md R152). -/
def InputCode.instr : InputCode → Instr
  | .external => .inputExternal
  | .encoder3 => .inputEncoder3

/-- The calibration invocation of a phase, as an instruction (30_encoding.md R155). -/
def CalphCode.instr : CalphCode → Instr
  | .stop => .calphStop
  | .start => .calphStart
  | .pause1 => .calphPause1
  | .continue1 => .calphContinue1
  | .pause2 => .calphPause2
  | .continue2 => .calphContinue2

/-! ### The transaction word -/

/-- OP, bits [63:56] (30_encoding.md R131). -/
def txnOp (w : TxnWord) : Byte := w.extractLsb' 56 8

/-- AI, bits [55:48] (30_encoding.md R131). -/
def txnAi (w : TxnWord) : Byte := w.extractLsb' 48 8

/-- RSV, bits [47:32] (30_encoding.md R131). -/
def txnRsv (w : TxnWord) : BitVec 16 := w.extractLsb' 32 16

/-- DATA, bits [31:0] (30_encoding.md R131). -/
def txnData (w : TxnWord) : W32 := w.extractLsb' 0 32

/-- The word of the three fields, RSV = 0 (30_encoding.md R133: `OP << 56 | AI << 48 | DATA`). -/
def txnWord (op ai : Byte) (data : W32) : TxnWord := op ++ ai ++ (0 : BitVec 16) ++ data

/-- A transaction without operands: AI and DATA must be 0 (30_encoding.md R134). -/
def decodePlain (i : Instr) (ai : Byte) (data : W32) : Except Reject Instr :=
  if ai ≠ 0 then .error .aiNotZero
  else if data ≠ 0 then .error .dataNotZero
  else .ok i

/-- RXB: AI = 0, the byte in DATA[7:0], DATA[31:8] = 0 (30_encoding.md R132, R134). -/
def decodeRxb (ai : Byte) (data : W32) : Except Reject Instr :=
  if ai ≠ 0 then .error .aiNotZero
  else if data.extractLsb' 8 24 ≠ 0 then .error .dataNotZero
  else .ok (.rxb (data.extractLsb' 0 8))

/-- ENC: the sensor in AI, 0..2, the word in DATA (30_encoding.md R132, R134). -/
def decodeEnc (ai : Byte) (data : W32) : Except Reject Instr :=
  if ai.toNat ≤ 2 then .ok (.enc ai data) else .error (.sensorIndex ai)

/-- ADC: the channel in AI, 0..2, the count in DATA[15:0], DATA[31:16] = 0 (30_encoding.md R132, R134). -/
def decodeAdc (ai : Byte) (data : W32) : Except Reject Instr :=
  if ai.toNat ≤ 2 then
    if data.extractLsb' 16 16 ≠ 0 then .error .dataNotZero
    else .ok (.adc ai (data.extractLsb' 0 16))
  else .error (.channelIndex ai)

/-- RD: the register address in AI, DATA = 0 (30_encoding.md R133, R134). -/
def decodeRd (ai : Byte) (data : W32) : Except Reject Instr :=
  if data ≠ 0 then .error .dataNotZero else .ok (.rd ai)

/-- The transaction of a word, or why it is not well formed (30_encoding.md R133, R134). -/
def decodeTxn (w : TxnWord) : Except Reject Instr :=
  if txnRsv w ≠ 0 then .error .rsvNotZero
  else
    match (txnOp w).toNat with
    | 0x01 => decodePlain .reset (txnAi w) (txnData w)
    | 0x02 => decodePlain .timer (txnAi w) (txnData w)
    | 0x03 => decodeRxb (txnAi w) (txnData w)
    | 0x04 => decodeEnc (txnAi w) (txnData w)
    | 0x05 => decodeAdc (txnAi w) (txnData w)
    | 0x06 => decodePlain .adcdone (txnAi w) (txnData w)
    | 0x07 => .ok (.wr (txnAi w) (txnData w))
    | 0x08 => decodeRd (txnAi w) (txnData w)
    | 0x09 => decodePlain .hdone (txnAi w) (txnData w)
    | 0x0A => decodePlain .step (txnAi w) (txnData w)
    | _ => .error (.reservedOp (txnOp w))

/-- The instruction of a word or code of any format (30_encoding.md R130). -/
def decode : Encoded → Except Reject Instr
  | .txn w => decodeTxn w
  | .seq c => match seqCodeOf c with
    | some x => .ok x.instr
    | none => .error (.reservedSeq c)
  | .framer c => match framerCodeOf c with
    | some x => .ok x.instr
    | none => .error (.reservedFramer c)
  | .mode c => match modeCodeOf c with
    | some x => .ok x.instr
    | none => .error (.reservedMode c)
  | .input c => match inputCodeOf c with
    | some x => .ok x.instr
    | none => .error (.otherInput c)
  | .calph c => match calphCodeOf c with
    | some x => .ok x.instr
    | none => .error (.reservedCalph c)

/-- The word or code of an instruction, written from the tables of 30_encoding.md R133, R140, R145, R150, R152, R155. -/
def encode : Instr → Encoded
  | .reset => .txn (txnWord 0x01 0 0)
  | .timer => .txn (txnWord 0x02 0 0)
  | .rxb b => .txn (txnWord 0x03 0 (b.setWidth 32))
  | .enc k w => .txn (txnWord 0x04 k w)
  | .adc c v => .txn (txnWord 0x05 c (v.setWidth 32))
  | .adcdone => .txn (txnWord 0x06 0 0)
  | .wr a v => .txn (txnWord 0x07 a v)
  | .rd a => .txn (txnWord 0x08 a 0)
  | .hdone => .txn (txnWord 0x09 0 0)
  | .step => .txn (txnWord 0x0A 0 0)
  | .seqIdle => .seq SeqCode.idle.bits
  | .seqAdcStart => .seq SeqCode.adcStart.bits
  | .seqDrainB => .seq SeqCode.drainB.bits
  | .seqEnc => .seq SeqCode.enc.bits
  | .seqPollC => .seq SeqCode.pollC.bits
  | .seqInputOvr => .seq SeqCode.inputOvr.bits
  | .seqMotor => .seq SeqCode.motor.bits
  | .seqPollD => .seq SeqCode.pollD.bits
  | .seqAdcWait => .seq SeqCode.adcWait.bits
  | .seqAfe => .seq SeqCode.afe.bits
  | .seqCal => .seq SeqCode.cal.bits
  | .seqSwap => .seq SeqCode.swap.bits
  | .seqDrain => .seq SeqCode.drain.bits
  | .seqCallback => .seq SeqCode.callback.bits
  | .framerWaitStart => .framer FramerCode.waitStart.bits
  | .framerWaitId => .framer FramerCode.waitId.bits
  | .framerWaitLength => .framer FramerCode.waitLength.bits
  | .framerReceive => .framer FramerCode.receive.bits
  | .framerUnload => .framer FramerCode.unload.bits
  | .modePosition => .mode ModeCode.position.bits
  | .modePwm => .mode ModeCode.pwm.bits
  | .modeCurrent => .mode ModeCode.current.bits
  | .modePosCurr => .mode ModeCode.posCurr.bits
  | .modeDeflection => .mode ModeCode.deflection.bits
  | .modeDeflCurr => .mode ModeCode.deflCurr.bits
  | .inputExternal => .input InputCode.external.bits
  | .inputEncoder3 => .input InputCode.encoder3.bits
  | .calphStop => .calph CalphCode.stop.bits
  | .calphStart => .calph CalphCode.start.bits
  | .calphPause1 => .calph CalphCode.pause1.bits
  | .calphContinue1 => .calph CalphCode.continue1.bits
  | .calphPause2 => .calph CalphCode.pause2.bits
  | .calphContinue2 => .calph CalphCode.continue2.bits

/-- The bits of a table row's word as the decoder's input. A row of 64 bits is a transaction. A row of 8 bits is read as
a SEQ code, bits [4:0]: the five code formats share their numbers, and only the sequencer position is fetched by a step
(DESIGN CHOICE, notes/assumptions/4.md). -/
def tableWord (nbits w : Nat) : Option Encoded :=
  if nbits = 64 then
    if w < 2 ^ 64 then some (.txn (BitVec.ofNat 64 w)) else none
  else if nbits = 8 then
    if w < 2 ^ 5 then some (.seq (BitVec.ofNat 5 w)) else none
  else none

/-- The instruction the decoder reads from a table row's word. -/
def decodeTableWord (nbits w : Nat) : Option Instr :=
  match tableWord nbits w with
  | some e => match decode e with
    | .ok i => some i
    | .error _ => none
  | none => none

end Sys2Proof
end

