-- ==== Sys2Proof/Machine/Params.lean ====
section
/-! DEFINITION. The parameter set of 00_scope.md R10 with the spec's values, defaults and test-instance values, and the check
of R11 and R19 that a parameter set must pass. -/

namespace Sys2Proof

/-- A zero gain set. -/
def Gains.zero : Gains := { kp := 0, ki := 0, kd := 0 }

/-- The contents `State.reset` gives Mem: every field 0 (DESIGN CHOICE, unsafe, notes/assumptions/3.md; the spec leaves
MEM_AT_RESET open, 93_implementation_defined.md U1). -/
def DevMem.zero : DevMem :=
  { ctrlMode := 0, inputMode := 0, nodeAddr := 0, posLimEn := false,
    posLimInf := ⟨0, 0⟩, posLimSup := ⟨0, 0⟩, currLimit := 0,
    gPos := Gains.zero, gDefl := Gains.zero, gCurr := Gains.zero, gDcurr := Gains.zero,
    encOff := ⟨0, 0, 0⟩, encMult := ⟨0, 0, 0⟩, maxStiff := 0 }

/-- DERATE_TABLE of the test instance, entry j = 100 - 2j for j = 0..35 (00_scope.md R19). -/
def derateTableTI : List Byte := (List.range 36).map fun j => BitVec.ofNat 8 (100 - 2 * j)

/-- The values of 00_scope.md R10: the source's values, the general-knowledge defaults (93_implementation_defined.md GK1 to
GK8) and, where R10 says OPEN with no default, the test instance TI, which is no claim about the device (U14). -/
def Config.testInstance : Config :=
  { tickHz := 1000, startMark := 0x3A, broadcastAddr := 0x00, querySeq := ⟨0x3F, 0x0D, 0x0A⟩,
    framesPerDrain := 6, rxFifoDepth := 256, calDiv := 100,
    encShift := 6, encBits := 12, encAccept := 0x9669,
    pThresh := 131072, pPreshift := 8, pPostshift := 8,
    posIntSat := 50000000, currIntSat := 100000, pwmMax := 100,
    vOfs := 0, vGain := 1, vSh := 0, iOfs := 0, iGain := 1, iSh := 0,
    filtAlpha := 32, filtShift := 10,
    vLo := 8000, vHi := 26000, vStep := 500, derateTable := derateTableTI,
    pause1Ticks := 3, pause2Ticks := 3,
    calKp := 0x00008000, calKd := 0x00001000, calStep := 0x00000100, calCurrThresh := 300,
    regionDefault := 1, regionActive := 0,
    memAtReset := DevMem.zero }

/-- The value is an int32 (00_scope.md R10, column "width / type"). -/
def isInt32 (v : Int) : Bool := decide (-2147483648 ≤ v) && decide (v ≤ 2147483647)

/-- Every entry is in 0..100 and none is above the one before it (00_scope.md R19). -/
def derateTableOk : List Byte → Bool
  | [] => true
  | [a] => decide (a.toNat ≤ 100)
  | a :: b :: rest => decide (a.toNat ≤ 100) && decide (b.toNat ≤ a.toNat) && derateTableOk (b :: rest)

/-- The constraints of 00_scope.md R11 and R19 that the spec writes as formulas. -/
def Config.constraintsOk (c : Config) : Bool :=
  decide (c.encBits ≤ 16) && decide (c.encShift + c.encBits ≤ 32)
  && decide (c.vLo < c.vHi) && decide (0 < c.vStep)
  && derateTableOk c.derateTable
  && decide ((c.derateTable.length : Int) = (c.vHi - c.vLo + c.vStep - 1) / c.vStep)
  && decide (c.filtShift ≤ 30) && decide (0 ≤ c.filtAlpha) && decide (c.filtAlpha ≤ 2 ^ c.filtShift)
  && !(c.querySeq.a1 == c.startMark && c.querySeq.a2 == c.startMark)
  && decide (c.pwmMax < 2 ^ 15) && decide (c.pPreshift + c.pPostshift = gainFrac)

/-- The widths and ranges of 00_scope.md R10's type column, and the bounds the registers that count up to a parameter give
it: `drain_frames` has 3 bits (10_state.md R35), `cal_div` counts 0..CAL_DIV-1 (R37) (DEDUCED, notes/assumptions/9.md). -/
def Config.rangesOk (c : Config) : Bool :=
  decide (c.encShift ≤ 31) && decide (1 ≤ c.encBits)
  && isInt32 c.pThresh && decide (0 ≤ c.pThresh)
  && isInt32 c.posIntSat && decide (0 < c.posIntSat)
  && isInt32 c.currIntSat && decide (0 < c.currIntSat)
  && decide (0 < c.pwmMax)
  && isInt32 c.vOfs && isInt32 c.vGain && decide (c.vSh ≤ 31)
  && isInt32 c.iOfs && isInt32 c.iGain && decide (c.iSh ≤ 31)
  && isInt32 c.vLo && isInt32 c.vHi && isInt32 c.vStep
  && isInt32 c.calKp && isInt32 c.calKd && isInt32 c.calStep && isInt32 c.calCurrThresh
  && decide (1 ≤ c.pause1Ticks) && decide (1 ≤ c.pause2Ticks)
  && decide (c.framesPerDrain ≤ 7) && decide (1 ≤ c.calDiv)

/-- A parameter set a model may use (00_scope.md R11: "a violating parameter set is refused, not given a meaning"). -/
def Config.valid (c : Config) : Bool := c.constraintsOk && c.rangesOk

end Sys2Proof
end

