-- ==== Sys2Proof/Machine/State.lean ====
section
/-! DEFINITION. The state of the block (10_state.md R31), as plain data, with the output trace, the transactions still to be
presented and the parameters; the reasons a step can stop; the state after reset (70_reset_and_hazards.md R410). -/

namespace Sys2Proof.Machine

open Sys2Proof

/-- The callback the core holds for (10_state.md R38). -/
inductive CbKind where
  | none | frame | info
  deriving DecidableEq, Repr

/-- The last-commanded PWM sign, -1 or +1 (10_state.md R51). -/
inductive Sign where
  | neg | pos
  deriving DecidableEq, Repr

/-- An event of the output trace (00_scope.md R16). -/
inductive Event where
  | pwm (m : Fin 2) (dir : Bool) (mag : W16)
  | driveEn (mask : BitVec 2)
  | flowctlPulse
  | adcStart
  | timerReset
  | callbackFrame (len : Byte)
  | callbackInfo
  | store (region : Byte) (snapshot : DevMem)
  | regRdData (a : Byte) (v : W32)
  deriving DecidableEq, Repr

/-- A frame byte buffer as (address, byte) pairs in canonical form (20_memory.md R104, notes/assumptions/19.md). -/
abbrev Memory := List Host.Cell

/-- A sequencer position: a SEQ code and an index (10_state.md R32, R33, R34). -/
structure SeqPos where
  code : SeqCode
  idx  : Fin 3
  deriving DecidableEq, Repr

/-- One generation of the Reference State (10_state.md R40). -/
structure Ref where
  pos   : Two W32
  onoff : BitVec 2
  deriving DecidableEq, Repr

/-- The Measurement State (10_state.md R41). -/
structure Meas where
  pos   : Three W32
  turns : Three W16
  curr  : Two W32
  volt  : W32
  deriving DecidableEq, Repr

/-- The in-progress frame registers (10_state.md R45). -/
structure FramerRegs where
  fstate    : FramerCode
  win       : Three Byte
  forMe     : Bool
  flen      : Byte
  fidx      : Byte
  fbuf      : Memory
  unloadCnt : Byte
  deriving DecidableEq, Repr

/-- The committed reception buffer (10_state.md R46). -/
structure RxCommit where
  buf   : Memory
  len   : Byte
  ready : Bool
  deriving DecidableEq, Repr

/-- The PID accumulators of both motors (10_state.md R48). -/
structure PidRegs where
  posInt    : Two W32
  posEprev  : Two W32
  currInt   : Two W32
  currEprev : Two W32
  deriving DecidableEq, Repr

/-- The encoder registers (10_state.md R49). -/
structure EncRegs where
  last      : Three W16
  noise     : Three (BitVec 4)
  resetLast : Bool
  deriving DecidableEq, Repr

/-- The drive registers (10_state.md R51); `dir` and `mag` are the PWM output ports (R54). -/
structure DriveRegs where
  pwmLimit : Byte
  sign     : Two Sign
  dir      : Two Bool
  mag      : Two W16
  deriving DecidableEq, Repr

/-- The Calibration Session State (10_state.md R52). -/
structure CalRegs where
  phase      : CalphCode
  pause      : W16
  saved      : Gains
  savedOnoff : BitVec 2
  deriving DecidableEq, Repr

/-- The input ports, the flow-control line and the receive FIFO, oldest byte first (10_state.md R53, R54, R55). -/
structure Ports where
  encWord  : Three W32
  adcRaw   : Three W16
  adcReady : Bool
  flowctl  : Bool
  rxFifo   : List Byte
  deriving DecidableEq, Repr

/-- The state of the block (10_state.md R31). The last three fields are the observation and the model's own: the output
trace, oldest event first (00_scope.md R16), the transaction words the environment presents next, oldest first
(notes/assumptions/1.md), and the parameters (notes/assumptions/2.md). -/
structure State where
  /-- `seq` and `seq_idx` (R32, R33). -/
  seq         : SeqPos
  /-- `drain_ret` (R34). -/
  drainRet    : SeqPos
  /-- `drain_frames` (R35). -/
  drainFrames : BitVec 3
  /-- `tick_pending` (R36). -/
  tickPending : Bool
  /-- `cal_div` (R37). -/
  calDiv      : Nat
  /-- `cb_kind` (R38). -/
  cbKind      : CbKind
  /-- The committed references (R40). -/
  refC        : Ref
  /-- The pending references (R40). -/
  refP        : Ref
  /-- The previous-tick references (R40). -/
  refPrev     : Ref
  /-- The measurements (R41). -/
  meas        : Meas
  /-- The previous-tick measurements (R42). -/
  measPrev    : Meas
  /-- The device configuration `Mem` (R43). -/
  mem         : DevMem
  /-- The framer registers (R45). -/
  framer      : FramerRegs
  /-- The committed reception buffer (R46). -/
  rxc         : RxCommit
  /-- `rx_flag` (R47). -/
  rxFlag      : Bool
  /-- `rx_enabled` (R47). -/
  rxEnabled   : Bool
  /-- The PID accumulators (R48). -/
  pid         : PidRegs
  /-- The encoder registers (R49). -/
  enc         : EncRegs
  /-- The filter state of each motor (R50). -/
  filt        : Two W32
  /-- The drive registers (R51). -/
  drive       : DriveRegs
  /-- The calibration session (R52). -/
  cal         : CalRegs
  /-- The ports (R53 to R55). -/
  ports       : Ports
  /-- The output trace (00_scope.md R16). -/
  trace       : List Event
  /-- The transactions still to be presented. -/
  txns        : List TxnWord
  /-- The parameters (00_scope.md R10). -/
  cfg         : Config
  deriving DecidableEq, Repr

/-- Why the machine stops with a fault. No run from a state that meets `Legal` (Safety.lean) reaches one: the block itself
raises no exception (60_exceptions.md R380). -/
inductive Fault where
  /-- Raised by MOTOR and by the MODE instructions when `seq_idx` is 2: the motors are 0 and 1 (40_scheduler.md R177), so no
  rule says what a third does. Safe: the model stops where the hardware has no defined behaviour
  (notes/assumptions/7.md). -/
  | noSuchMotor
  /-- Raised by Receive when `fidx` is 128 or more: the frame buffer has bytes 0..127 (20_memory.md R104). Safe: no rule
  lets the index go there (notes/assumptions/8.md). -/
  | bufferBounds
  deriving DecidableEq, Repr

/-- Why a step is refused. -/
inductive Refusal where
  /-- Raised by an arm of `exec` whose instruction has no meaning yet. Safe. No arm raises it in this model. -/
  | notModelled (mnemonic : String)
  /-- Raised by `step` when the parameters break 00_scope.md R11 or R19 (93_implementation_defined.md U13, treatment
  `refuse`). Safe: no meaning is given to such a parameter set. -/
  | badParameters
  deriving DecidableEq, Repr

/-- A zero Reference State generation. -/
def Ref.zero : Ref := { pos := ⟨0, 0⟩, onoff := 0 }

/-- A zero Measurement State. -/
def Meas.zero : Meas := { pos := ⟨0, 0, 0⟩, turns := ⟨0, 0, 0⟩, curr := ⟨0, 0⟩, volt := 0 }

/-- The state after RESET (70_reset_and_hazards.md R410), with an empty trace, no transaction to be presented and the
parameters of `Config.testInstance` (notes/assumptions/1.md, 2.md, 3.md). -/
def State.reset : State :=
  { seq := ⟨.idle, 0⟩
    drainRet := ⟨.idle, 0⟩
    drainFrames := 0
    tickPending := false
    calDiv := 0
    cbKind := .none
    refC := Ref.zero
    refP := Ref.zero
    refPrev := Ref.zero
    meas := Meas.zero
    measPrev := Meas.zero
    mem := Config.testInstance.memAtReset
    framer := { fstate := .waitStart, win := ⟨0, 0, 0⟩, forMe := false, flen := 0, fidx := 0, fbuf := [], unloadCnt := 0 }
    rxc := { buf := [], len := 0, ready := false }
    rxFlag := false
    rxEnabled := true
    pid := { posInt := ⟨0, 0⟩, posEprev := ⟨0, 0⟩, currInt := ⟨0, 0⟩, currEprev := ⟨0, 0⟩ }
    enc := { last := ⟨0, 0, 0⟩, noise := ⟨0, 0, 0⟩, resetLast := true }
    filt := ⟨0, 0⟩
    drive := { pwmLimit := 0, sign := ⟨.pos, .pos⟩, dir := ⟨false, false⟩, mag := ⟨0, 0⟩ }
    cal := { phase := .stop, pause := 0, saved := Gains.zero, savedOnoff := 0 }
    ports := { encWord := ⟨0, 0, 0⟩, adcRaw := ⟨0, 0, 0⟩, adcReady := false, flowctl := true, rxFifo := [] }
    trace := []
    txns := []
    cfg := Config.testInstance }

/-- The outcome of an instruction or a step. -/
abbrev Result := Host.Outcome State Fault Refusal

end Sys2Proof.Machine
end

