-- ==== Sys2Proof/Machine/Operands.lean ====
section
/-! DEFINITION. The operand forms: the widening and narrowing primitives of 00_scope.md R13, the components of a pair or a
triple, and the bytes of a frame buffer (20_memory.md R104). -/

namespace Sys2Proof

/-- `wrap32` (00_scope.md R13). -/
def wrap32 (v : Int) : Int := (BitVec.ofInt 32 v).toInt

/-- `wrap16` (00_scope.md R13). -/
def wrap16 (v : Int) : Int := (BitVec.ofInt 16 v).toInt

/-- `asr(v, k) = floor(v / 2^k)` (00_scope.md R13). -/
def asr (v : Int) (k : Nat) : Int := v / 2 ^ k

/-- `tdiv(a, b)`, truncated toward zero (00_scope.md R13). -/
def tdiv (a b : Int) : Int := Int.tdiv a b

/-- `clamp(v, lo, hi) = max(lo, min(v, hi))` (00_scope.md R13). -/
def clamp (v lo hi : Int) : Int := max lo (min v hi)

/-- `abs(v)` (00_scope.md R13). -/
def iabs (v : Int) : Int := if v < 0 then -v else v

/-- Component m of a pair: motor m. -/
def Two.get {α : Type} (t : Two α) (m : Fin 2) : α :=
  match m with
  | 0 => t.a0
  | 1 => t.a1

/-- The pair with component m replaced. -/
def Two.set {α : Type} (t : Two α) (m : Fin 2) (v : α) : Two α :=
  match m with
  | 0 => { t with a0 := v }
  | 1 => { t with a1 := v }

/-- Component k of a triple: sensor k or ADC channel k. -/
def Three.get {α : Type} (t : Three α) (k : Fin 3) : α :=
  match k with
  | 0 => t.a0
  | 1 => t.a1
  | 2 => t.a2

/-- The triple with component k replaced. -/
def Three.set {α : Type} (t : Three α) (k : Fin 3) (v : α) : Three α :=
  match k with
  | 0 => { t with a0 := v }
  | 1 => { t with a1 := v }
  | 2 => { t with a2 := v }

/-- The index an AI field of ENC or ADC names, if it is 0..2 (30_encoding.md R134). -/
def index3 (a : Byte) : Option (Fin 3) :=
  match a.toNat with
  | 0 => some 0
  | 1 => some 1
  | 2 => some 2
  | _ => none

/-- The motor a sequencer index names: 0 or 1 (10_state.md R33, 40_scheduler.md R177). -/
def motorOf (i : Fin 3) : Option (Fin 2) :=
  match i with
  | 0 => some 0
  | 1 => some 1
  | 2 => none

end Sys2Proof

namespace Sys2Proof.Machine

open Sys2Proof

/-- The value of a sign (10_state.md R51). -/
def Sign.toInt : Sign → Int
  | .neg => -1
  | .pos => 1

/-- What an address the memory does not list reads as: 0, the reset contents of both frame buffers
(70_reset_and_hazards.md R410). -/
def unlisted : Byte := 0

/-- `MemRead(buf, a, 1)` (20_memory.md R104): the listed byte, or what an unlisted address reads as. -/
def memRead : Memory → Nat → Byte
  | [], _ => unlisted
  | (x, b) :: rest, a => if x = a then b else memRead rest a

/-- Insert or replace an entry, keeping the addresses rising. -/
def memInsert : Memory → Nat → Byte → Memory
  | [], a, b => [(a, b)]
  | (x, c) :: rest, a, b =>
    if a < x then (a, b) :: (x, c) :: rest
    else if a = x then (a, b) :: rest
    else (x, c) :: memInsert rest a b

/-- Remove the entry of an address. -/
def memErase : Memory → Nat → Memory
  | [], _ => []
  | (x, c) :: rest, a => if x = a then rest else (x, c) :: memErase rest a

/-- `MemWrite(buf, a, 1, b)` (20_memory.md R104), in canonical form: writing what an unlisted address reads as removes the
entry. -/
def memWrite (m : Memory) (a : Nat) (b : Byte) : Memory :=
  if b = unlisted then memErase m a else memInsert m a b

/-- Every listed address is above `lo`. -/
def memAbove (lo : Nat) : Memory → Bool
  | [] => true
  | (x, _) :: _ => decide (lo < x)

/-- The canonical form: addresses strictly rising, no entry equal to what an unlisted address reads as. -/
def memWf : Memory → Bool
  | [] => true
  | (x, b) :: rest => decide (b ≠ unlisted) && memAbove x rest && memWf rest

/-- Every listed address is a byte of a buffer of `n` bytes. -/
def memWithin (n : Nat) : Memory → Bool
  | [] => true
  | (x, _) :: rest => decide (x < n) && memWithin n rest

/-- `for i in 0 .. n-1: MemWrite(dst, i, 1, src[i])` (41_framer.md R207). -/
def memCopy (src : Memory) : Nat → Memory → Memory
  | 0, dst => dst
  | n + 1, dst => memWrite (memCopy src n dst) n (memRead src n)

end Sys2Proof.Machine
end

