-- ==== Sys2Proof/Machine/Flags.lean ====
section
/-! DEFINITION. The status flags of 10_state.md R58: each flag's set and clear, and the FLAGS register. The block has no
arithmetic condition code (R58). -/

namespace Sys2Proof.Machine

open Sys2Proof

/-- `rx_flag <- v`: set by RXB, cleared at drain entry (10_state.md R58). -/
def State.putRxFlag (s : State) (v : Bool) : State := { s with rxFlag := v }

/-- `rx_enabled <- v`: cleared by calibration Start, set by Continue2 (10_state.md R58). -/
def State.putRxEnabled (s : State) (v : Bool) : State := { s with rxEnabled := v }

/-- `tick_pending <- v`: set by TIMER, cleared when a tick starts (10_state.md R58). -/
def State.putTickPending (s : State) (v : Bool) : State := { s with tickPending := v }

/-- `adc_ready <- v`: set by ADCDONE, cleared by the ADC_START step (10_state.md R58). -/
def State.putAdcReady (s : State) (v : Bool) : State := { s with ports := { s.ports with adcReady := v } }

/-- `rxc_ready <- v`: set by frame dispatch, cleared by the host (10_state.md R58). -/
def State.putRxcReady (s : State) (v : Bool) : State := { s with rxc := { s.rxc with ready := v } }

/-- `reset_last <- v`: set by reset and by the host, cleared by the encoder step (10_state.md R58). -/
def State.putResetLast (s : State) (v : Bool) : State := { s with enc := { s.enc with resetLast := v } }

/-- `for_me <- v`: written by WaitId, cleared by a discard (10_state.md R58, 41_framer.md R204). -/
def State.putForMe (s : State) (v : Bool) : State := { s with framer := { s.framer with forMe := v } }

/-- FLAGS, register 0x65: [0] rx_flag, [1] rx_enabled, [2] reset_last, [3] tick_pending, [4] rxc_ready (10_state.md R56). -/
def flagsWord (s : State) : W32 :=
  (0 : BitVec 27) ++ BitVec.ofBool s.rxc.ready ++ BitVec.ofBool s.tickPending ++ BitVec.ofBool s.enc.resetLast
    ++ BitVec.ofBool s.rxEnabled ++ BitVec.ofBool s.rxFlag

/-- `drive_en[1:0]`, which always equals `ref_c.onoff` (10_state.md R54, notes/assumptions/15.md). -/
def State.driveEn (s : State) : BitVec 2 := s.refC.onoff

end Sys2Proof.Machine
end

