-- ==== Sys2Proof/Machine/Ops.lean ====
section
/-! DEFINITION. The operations every family shares: moving the sequencer, emitting an event, the receive FIFO, and what the
block has in place of taking an exception and returning from one (60_exceptions.md R386 to R388): tick entry and end, drain
entry and end, callback entry and return, with the polls that take a pending receive flag (41_framer.md R214 to R218). -/

namespace Sys2Proof.Machine

open Sys2Proof

/-- `(seq, seq_idx) <- p` (00_scope.md R15). -/
def State.goto (s : State) (p : SeqPos) : State := { s with seq := p }

/-- `seq <- c`, the index unchanged (00_scope.md R15). -/
def State.gotoCode (s : State) (c : SeqCode) : State := { s with seq := { s.seq with code := c } }

/-- `emit(e)`: append to the output trace (00_scope.md R15, R16). -/
def State.emit (s : State) (e : Event) : State := { s with trace := s.trace ++ [e] }

/-- `fifo_pop()`: the oldest byte of the receive FIFO and the state without it (20_memory.md R106). -/
def State.fifoPop (s : State) : Option (Byte × State) :=
  match s.ports.rxFifo with
  | [] => none
  | b :: rest => some (b, { s with ports := { s.ports with rxFifo := rest } })

/-- Append a byte to the receive FIFO, or lose it when the FIFO is full (47_host_interface.md R368). -/
def State.fifoPush (s : State) (b : Byte) : State :=
  if s.ports.rxFifo.length < s.cfg.rxFifoDepth then
    { s with ports := { s.ports with rxFifo := s.ports.rxFifo ++ [b] } }
  else s

/-! ### Entry and return -/

/-- Tick entry: `tick_pending <- 0; seq <- ADC_START`, nothing saved (40_scheduler.md R171, 60_exceptions.md R386). -/
def enterTick (s : State) : State := (s.putTickPending false).gotoCode .adcStart

/-- The end of a tick: `emit(TIMER_RESET); seq <- IDLE` (40_scheduler.md R183, 60_exceptions.md R388). -/
def endTick (s : State) : State := (s.emit .timerReset).gotoCode .idle

/-- `enter_drain(ret)` (41_framer.md R214, R218; 60_exceptions.md R387). -/
def enterDrain (ret : SeqPos) (s : State) : State :=
  if s.rxEnabled then
    { s.putRxFlag false with drainFrames := 0, drainRet := ret, seq := { s.seq with code := .drain } }
  else s.goto ret

/-- `poll(next)` (41_framer.md R215). -/
def poll (next : SeqPos) (s : State) : State :=
  if s.rxEnabled && s.rxFlag then enterDrain next s else s.goto next

/-- `drain_end()`: `(seq, seq_idx) <- drain_ret` (41_framer.md R217; 60_exceptions.md R388). -/
def drainEnd (s : State) : State := s.goto s.drainRet

/-- Callback entry: `cb_kind <- kind; emit(e); seq <- CALLBACK` (41_framer.md R202, R207; 60_exceptions.md R387). -/
def enterCallback (kind : CbKind) (e : Event) (s : State) : State :=
  ({ s with cbKind := kind }.emit e).gotoCode .callback

/-- Callback return: `cb_kind <- NONE; seq <- DRAIN` (47_host_interface.md R367; 60_exceptions.md R388). -/
def leaveCallback (s : State) : State := { s with cbKind := .none }.gotoCode .drain

/-- The positions at which the host may act: IDLE and CALLBACK (47_host_interface.md R360). -/
def hostMayAct (s : State) : Bool :=
  match s.seq.code with
  | .idle | .callback => true
  | .adcStart | .drainB | .enc | .pollC | .inputOvr | .motor | .pollD | .adcWait | .afe | .cal | .swap | .drain => false

/-- The three holds, at which STEP changes nothing (60_exceptions.md R395). -/
def atHold (s : State) : Bool :=
  match s.seq.code with
  | .idle => !s.tickPending
  | .adcWait => !s.ports.adcReady && !(s.rxEnabled && s.rxFlag)
  | .callback => true
  | .adcStart | .drainB | .enc | .pollC | .inputOvr | .motor | .pollD | .afe | .cal | .swap | .drain => false

end Sys2Proof.Machine
end

