-- ==== Sys2Proof/Machine/Registers.lean ====
section
/-! DEFINITION. The host register map (10_state.md R56, R57): the registers, their addresses and names, reads and writes. -/

namespace Sys2Proof.Machine

open Sys2Proof

/-- A gain set of Mem (10_state.md R43). -/
inductive GainSet where
  | pos | defl | curr | dcurr
  deriving DecidableEq, Repr

/-- A term of a gain set (10_state.md R43). -/
inductive GainTerm where
  | kp | ki | kd
  deriving DecidableEq, Repr

/-- The registers of 10_state.md R56. -/
inductive Reg where
  | ctrlMode | inputMode | nodeAddr | posLimEn
  | posLimInf (m : Fin 2) | posLimSup (m : Fin 2)
  | currLimit | maxStiff
  | gain (g : GainSet) (t : GainTerm)
  | encOff (k : Fin 3) | encMult (k : Fin 3)
  | refPendPos (m : Fin 2) | refPendOnoff
  | refPos (m : Fin 2) | refOnoff
  | refPrevPos (m : Fin 2) | refPrevOnoff
  | measPos (k : Fin 3) | measCurr (m : Fin 2) | measVolt | measTurns (k : Fin 3)
  | prevPos (k : Fin 3) | prevCurr (m : Fin 2) | prevVolt | prevTurns (k : Fin 3)
  | pwmLimit | pwmOut (m : Fin 2)
  | calStatus | framerStatus | flags
  | cmdCalStart | cmdResetLast
  | rxLen | rxReady
  | rxBuf (j : BitVec 5)
  deriving DecidableEq, Repr

/-- The registers at 0x00..0x0F (10_state.md R56). -/
def regPage0 (a : Nat) : Option Reg :=
  match a with
  | 0x00 => some .ctrlMode
  | 0x01 => some .inputMode
  | 0x02 => some .nodeAddr
  | 0x03 => some .posLimEn
  | 0x04 => some (.posLimInf 0)
  | 0x05 => some (.posLimInf 1)
  | 0x06 => some (.posLimSup 0)
  | 0x07 => some (.posLimSup 1)
  | 0x08 => some .currLimit
  | 0x09 => some .maxStiff
  | _ => none

/-- The registers at 0x10 + a (10_state.md R56). -/
def regPage1 (a : Nat) : Option Reg :=
  match a with
  | 0x0 => some (.gain .pos .kp)
  | 0x1 => some (.gain .pos .ki)
  | 0x2 => some (.gain .pos .kd)
  | 0x3 => some (.gain .defl .kp)
  | 0x4 => some (.gain .defl .ki)
  | 0x5 => some (.gain .defl .kd)
  | 0x6 => some (.gain .curr .kp)
  | 0x7 => some (.gain .curr .ki)
  | 0x8 => some (.gain .curr .kd)
  | 0x9 => some (.gain .dcurr .kp)
  | 0xA => some (.gain .dcurr .ki)
  | 0xB => some (.gain .dcurr .kd)
  | _ => none

/-- The registers at 0x20 + a (10_state.md R56). -/
def regPage2 (a : Nat) : Option Reg :=
  match a with
  | 0x0 => some (.encOff 0)
  | 0x1 => some (.encOff 1)
  | 0x2 => some (.encOff 2)
  | 0x4 => some (.encMult 0)
  | 0x5 => some (.encMult 1)
  | 0x6 => some (.encMult 2)
  | _ => none

/-- The registers at 0x30 + a (10_state.md R56). -/
def regPage3 (a : Nat) : Option Reg :=
  match a with
  | 0x0 => some (.refPendPos 0)
  | 0x1 => some (.refPendPos 1)
  | 0x2 => some .refPendOnoff
  | 0x4 => some (.refPos 0)
  | 0x5 => some (.refPos 1)
  | 0x6 => some .refOnoff
  | 0x8 => some (.refPrevPos 0)
  | 0x9 => some (.refPrevPos 1)
  | 0xA => some .refPrevOnoff
  | _ => none

/-- The registers at 0x40 + a (10_state.md R56). -/
def regPage4 (a : Nat) : Option Reg :=
  match a with
  | 0x0 => some (.measPos 0)
  | 0x1 => some (.measPos 1)
  | 0x2 => some (.measPos 2)
  | 0x4 => some (.measCurr 0)
  | 0x5 => some (.measCurr 1)
  | 0x6 => some .measVolt
  | 0x8 => some (.measTurns 0)
  | 0x9 => some (.measTurns 1)
  | 0xA => some (.measTurns 2)
  | _ => none

/-- The registers at 0x50 + a (10_state.md R56). -/
def regPage5 (a : Nat) : Option Reg :=
  match a with
  | 0x0 => some (.prevPos 0)
  | 0x1 => some (.prevPos 1)
  | 0x2 => some (.prevPos 2)
  | 0x4 => some (.prevCurr 0)
  | 0x5 => some (.prevCurr 1)
  | 0x6 => some .prevVolt
  | 0x8 => some (.prevTurns 0)
  | 0x9 => some (.prevTurns 1)
  | 0xA => some (.prevTurns 2)
  | _ => none

/-- The registers at 0x60 + a (10_state.md R56). -/
def regPage6 (a : Nat) : Option Reg :=
  match a with
  | 0x0 => some .pwmLimit
  | 0x1 => some (.pwmOut 0)
  | 0x2 => some (.pwmOut 1)
  | 0x3 => some .calStatus
  | 0x4 => some .framerStatus
  | 0x5 => some .flags
  | _ => none

/-- The registers at 0x70 + a (10_state.md R56). -/
def regPage7 (a : Nat) : Option Reg :=
  match a with
  | 0x0 => some .cmdCalStart
  | 0x1 => some .cmdResetLast
  | 0x8 => some .rxLen
  | 0x9 => some .rxReady
  | _ => none

/-- The register at an address, if the address is not reserved (10_state.md R56, R57). -/
def regAt (a : Byte) : Option Reg :=
  let lo := a.toNat % 16
  match a.toNat / 16 with
  | 0 => regPage0 lo
  | 1 => regPage1 lo
  | 2 => regPage2 lo
  | 3 => regPage3 lo
  | 4 => regPage4 lo
  | 5 => regPage5 lo
  | 6 => regPage6 lo
  | 7 => regPage7 lo
  | 8 => some (.rxBuf (a.extractLsb' 0 5))
  | 9 => some (.rxBuf (a.extractLsb' 0 5))
  | _ => none

/-- The gain set of a configuration. -/
def gainsOf (g : GainSet) (m : DevMem) : Gains :=
  match g with
  | .pos => m.gPos
  | .defl => m.gDefl
  | .curr => m.gCurr
  | .dcurr => m.gDcurr

/-- A configuration with a gain set replaced. -/
def putGains (g : GainSet) (v : Gains) (m : DevMem) : DevMem :=
  match g with
  | .pos => { m with gPos := v }
  | .defl => { m with gDefl := v }
  | .curr => { m with gCurr := v }
  | .dcurr => { m with gDcurr := v }

/-- A term of a gain set. -/
def gainTerm (t : GainTerm) (g : Gains) : W32 :=
  match t with
  | .kp => g.kp
  | .ki => g.ki
  | .kd => g.kd

/-- A gain set with a term replaced. -/
def putGainTerm (t : GainTerm) (v : W32) (g : Gains) : Gains :=
  match t with
  | .kp => { g with kp := v }
  | .ki => { g with ki := v }
  | .kd => { g with kd := v }

/-- PWM_OUTm: [15:0] magnitude, [16] direction (10_state.md R56). -/
def pwmOutWord (m : Fin 2) (d : DriveRegs) : W32 := (0 : BitVec 15) ++ BitVec.ofBool (d.dir.get m) ++ d.mag.get m

/-- CAL_STATUS: [2:0] phase, [31:16] pause (10_state.md R56). -/
def calStatusWord (c : CalRegs) : W32 := c.pause ++ (0 : BitVec 13) ++ c.phase.bits

/-- FRAMER_STATUS: [2:0] fstate, [3] for_me, [15:8] flen, [23:16] fidx (10_state.md R56). -/
def framerStatusWord (f : FramerRegs) : W32 :=
  (0 : Byte) ++ f.fidx ++ f.flen ++ (0 : BitVec 4) ++ BitVec.ofBool f.forMe ++ f.fstate.bits

/-- RX_BUF_j: four payload bytes, the lowest address in bits [7:0] (20_memory.md R103). -/
def rxBufWord (j : BitVec 5) (buf : Memory) : W32 :=
  memRead buf (4 * j.toNat + 3) ++ memRead buf (4 * j.toNat + 2) ++ memRead buf (4 * j.toNat + 1) ++ memRead buf (4 * j.toNat)

/-- The value a read of a register gives: signed fields sign-extended, the others zero-extended, write-only registers 0
(10_state.md R56). -/
def readReg (r : Reg) (s : State) : W32 :=
  match r with
  | .ctrlMode => s.mem.ctrlMode.setWidth 32
  | .inputMode => s.mem.inputMode.setWidth 32
  | .nodeAddr => s.mem.nodeAddr.setWidth 32
  | .posLimEn => (BitVec.ofBool s.mem.posLimEn).setWidth 32
  | .posLimInf m => s.mem.posLimInf.get m
  | .posLimSup m => s.mem.posLimSup.get m
  | .currLimit => s.mem.currLimit.setWidth 32
  | .maxStiff => s.mem.maxStiff
  | .gain g t => gainTerm t (gainsOf g s.mem)
  | .encOff k => (s.mem.encOff.get k).signExtend 32
  | .encMult k => s.mem.encMult.get k
  | .refPendPos m => s.refP.pos.get m
  | .refPendOnoff => s.refP.onoff.setWidth 32
  | .refPos m => s.refC.pos.get m
  | .refOnoff => s.refC.onoff.setWidth 32
  | .refPrevPos m => s.refPrev.pos.get m
  | .refPrevOnoff => s.refPrev.onoff.setWidth 32
  | .measPos k => s.meas.pos.get k
  | .measCurr m => s.meas.curr.get m
  | .measVolt => s.meas.volt
  | .measTurns k => (s.meas.turns.get k).signExtend 32
  | .prevPos k => s.measPrev.pos.get k
  | .prevCurr m => s.measPrev.curr.get m
  | .prevVolt => s.measPrev.volt
  | .prevTurns k => (s.measPrev.turns.get k).signExtend 32
  | .pwmLimit => s.drive.pwmLimit.setWidth 32
  | .pwmOut m => pwmOutWord m s.drive
  | .calStatus => calStatusWord s.cal
  | .framerStatus => framerStatusWord s.framer
  | .flags => flagsWord s
  | .cmdCalStart => 0
  | .cmdResetLast => 0
  | .rxLen => s.rxc.len.setWidth 32
  | .rxReady => (BitVec.ofBool s.rxc.ready).setWidth 32
  | .rxBuf j => rxBufWord j s.rxc.buf

/-- RX_READY write: 0 clears the flag, 1 has no effect (47_host_interface.md R362). -/
def writeRxReady (v : W32) (s : State) : State := if v.getLsbD 0 then s else s.putRxcReady false

/-- CMD_CAL_START write: starts a session from STOP only (47_host_interface.md R363). -/
def writeCalStart (v : W32) (s : State) : State :=
  if v.getLsbD 0 && decide (s.cal.phase = .stop) then { s with cal := { s.cal with phase := .start, pause := 0 } } else s

/-- CMD_RESET_LAST write (47_host_interface.md R364). -/
def writeResetLast (v : W32) (s : State) : State := if v.getLsbD 0 then s.putResetLast true else s

/-- The effect of writing v to a register: a read-write field keeps the low bits of its width, a read-only field is not
changed (10_state.md R56, 47_host_interface.md R361). -/
def writeReg (r : Reg) (v : W32) (s : State) : State :=
  match r with
  | .ctrlMode => { s with mem := { s.mem with ctrlMode := v.setWidth 8 } }
  | .inputMode => { s with mem := { s.mem with inputMode := v.setWidth 8 } }
  | .nodeAddr => { s with mem := { s.mem with nodeAddr := v.setWidth 8 } }
  | .posLimEn => { s with mem := { s.mem with posLimEn := v.getLsbD 0 } }
  | .posLimInf m => { s with mem := { s.mem with posLimInf := s.mem.posLimInf.set m v } }
  | .posLimSup m => { s with mem := { s.mem with posLimSup := s.mem.posLimSup.set m v } }
  | .currLimit => { s with mem := { s.mem with currLimit := v.setWidth 16 } }
  | .maxStiff => { s with mem := { s.mem with maxStiff := v } }
  | .gain g t => { s with mem := putGains g (putGainTerm t v (gainsOf g s.mem)) s.mem }
  | .encOff k => { s with mem := { s.mem with encOff := s.mem.encOff.set k (v.setWidth 16) } }
  | .encMult k => { s with mem := { s.mem with encMult := s.mem.encMult.set k v } }
  | .refPendPos m => { s with refP := { s.refP with pos := s.refP.pos.set m v } }
  | .refPendOnoff => { s with refP := { s.refP with onoff := v.setWidth 2 } }
  | .cmdCalStart => writeCalStart v s
  | .cmdResetLast => writeResetLast v s
  | .rxReady => writeRxReady v s
  | .refPos _ | .refOnoff | .refPrevPos _ | .refPrevOnoff => s
  | .measPos _ | .measCurr _ | .measVolt | .measTurns _ => s
  | .prevPos _ | .prevCurr _ | .prevVolt | .prevTurns _ => s
  | .pwmLimit | .pwmOut _ | .calStatus | .framerStatus | .flags | .rxLen | .rxBuf _ => s

/-- The value a read of an address gives; a reserved address reads 0 (10_state.md R57). -/
def regRead (a : Byte) (s : State) : W32 :=
  match regAt a with
  | some r => readReg r s
  | none => 0

/-- The effect of writing an address; a reserved address ignores the write (10_state.md R57). -/
def regWrite (a : Byte) (v : W32) (s : State) : State :=
  match regAt a with
  | some r => writeReg r v s
  | none => s

end Sys2Proof.Machine
end

