-- ==== Sys2Proof/Machine/Numeric.lean ====
section
/-! DEFINITION. The numeric utilities (42_numeric_utils.md): checksum, encoder validity, filter, qmul and lin. -/

namespace Sys2Proof

/-- `checksum(d)`: the XOR fold of a byte sequence from 0x00 (42_numeric_utils.md R230). The block never calls it; it is
offered to the host (47_host_interface.md R374). -/
def checksum (d : List Byte) : Byte := d.foldl (fun c b => c ^^^ b) 0

/-- The 4-bit hash of an encoder word (42_numeric_utils.md R232). -/
def encHash (w : W32) : BitVec 4 :=
  let x : Byte := w.extractLsb' 0 8 ^^^ w.extractLsb' 8 8 ^^^ w.extractLsb' 16 8 ^^^ w.extractLsb' 24 8
  x.extractLsb' 0 4 ^^^ x.extractLsb' 4 4

/-- `enc_valid(w)`: bit h of the acceptance table (42_numeric_utils.md R232). -/
def encValid (accept : BitVec 16) (w : W32) : Bool := accept.getLsbD (encHash w).toNat

/-- `qmul(k, v) = wrap32(asr(k * v, GAIN_FRAC))` (42_numeric_utils.md R236). -/
def qmul (k v : Int) : Int := wrap32 (asr (k * v) gainFrac)

/-- `lin(raw, ofs, gain, sh) = wrap32(asr((raw - ofs) * gain, sh))` (42_numeric_utils.md R237). -/
def lin (raw ofs gain : Int) (sh : Nat) : Int := wrap32 (asr ((raw - ofs) * gain) sh)

/-- The new value of a filter with state `old` and input x (42_numeric_utils.md R234), before the wrap of the store. -/
def filterValue (alpha : Int) (shift : Nat) (old x : Int) : Int :=
  asr (old * (2 ^ shift - alpha) + x * alpha) shift

end Sys2Proof

namespace Sys2Proof.Machine

open Sys2Proof

/-- `filter(m, x)`: writes `filt[m]`; the returned value is the one written (42_numeric_utils.md R234). -/
def filterStep (m : Fin 2) (x : Int) (s : State) : State :=
  let y := filterValue s.cfg.filtAlpha s.cfg.filtShift (s.filt.get m).toInt x
  { s with filt := s.filt.set m (BitVec.ofInt 32 y) }

end Sys2Proof.Machine
end

