-- ==== Sys2Proof/Machine/Analog.lean ====
section
/-! DEFINITION. The Analog Front-End and the Voltage/PWM Derating Table (45_analog_derating.md R310 to R314). -/

namespace Sys2Proof

/-- `derate(v)` (45_analog_derating.md R314). The index is inside the table for every valid parameter set; outside it the
lookup gives 0, no drive (notes/assumptions/20.md). -/
def derate (c : Config) (v : Int) : Byte :=
  if c.vHi ≤ v then 0
  else if v < c.vLo then 100
  else c.derateTable.getD (tdiv (v - c.vLo) c.vStep).toNat 0

end Sys2Proof

namespace Sys2Proof.Machine

open Sys2Proof

/-- The voltage of a raw count (45_analog_derating.md R311). -/
def voltOf (c : Config) (raw : W16) : Int := lin raw.toNat c.vOfs c.vGain c.vSh

/-- The ADC channel of a motor's current: 1 for motor 0, 2 for motor 1 (45_analog_derating.md). -/
def currentChannel (m : Fin 2) : Fin 3 :=
  match m with
  | 0 => 1
  | 1 => 2

/-- The sign-corrected current of motor m (45_analog_derating.md R310, R312). -/
def signedCurrent (m : Fin 2) (s : State) : Int :=
  wrap32 (lin (s.ports.adcRaw.get (currentChannel m)).toNat s.cfg.iOfs s.cfg.iGain s.cfg.iSh * (s.drive.sign.get m).toInt)

/-- Convert, filter and store the current of motor m (45_analog_derating.md R310, R312). -/
def storeCurrent (m : Fin 2) (s : State) : State :=
  let t := filterStep m (signedCurrent m s) s
  { t with meas := { t.meas with curr := t.meas.curr.set m (t.filt.get m) } }

/-- `analog_front_end()` (45_analog_derating.md R310). -/
def analogFrontEnd (s : State) : State :=
  let v := voltOf s.cfg (s.ports.adcRaw.get 0)
  let s1 := { s with meas := { s.meas with volt := BitVec.ofInt 32 v } }
  if 0 < v then
    let s2 := { s1 with drive := { s1.drive with pwmLimit := derate s1.cfg v } }
    storeCurrent 1 (storeCurrent 0 s2)
  else { s1 with meas := { s1.meas with curr := ⟨0, 0⟩ } }

end Sys2Proof.Machine
end

