-- ==== Sys2Proof/Machine/Calibration.lean ====
section
/-! DEFINITION. The Calibration Controller (46_calibration.md): the six phase bodies, one calibration invocation, and the
meanings of the CALPH rows. -/

namespace Sys2Proof.Machine

open Sys2Proof

/-- `cal_start()` (46_calibration.md R331). -/
def calStart (s : State) : State :=
  { s.putRxEnabled false with
    refP := { pos := ⟨0, 0⟩, onoff := s.refP.onoff ||| 0b11 }
    cal := { phase := .pause1, pause := 0, saved := s.mem.gPos, savedOnoff := s.refP.onoff } }

/-- `cal_pause1()` (46_calibration.md R332). -/
def calPause1 (s : State) : State :=
  let n := s.cal.pause + 1
  if n.toNat = s.cfg.pause1Ticks then
    { s with
      mem := { s.mem with gPos := { kp := BitVec.ofInt 32 s.cfg.calKp, ki := 0, kd := BitVec.ofInt 32 s.cfg.calKd } }
      cal := { s.cal with pause := 0, phase := .continue1 } }
  else { s with cal := { s.cal with pause := n } }

/-- `capture(o)` (46_calibration.md R334). -/
def calCapture (o : Fin 2) (s : State) : State :=
  { s with
    mem := { s.mem with maxStiff := s.refC.pos.get o, gPos := s.cal.saved }
    refP := { s.refP with pos := ⟨0, 0⟩ }
    cal := { s.cal with pause := 0, phase := .pause2 } }

/-- `cal_check()`: motor 0 is tested first, and the other motor's reference is captured (46_calibration.md R334). -/
def calCheck (s : State) : State :=
  if s.cfg.calCurrThresh < iabs (s.meas.curr.get 0).toInt then calCapture 1 s
  else if s.cfg.calCurrThresh < iabs (s.meas.curr.get 1).toInt then calCapture 0 s
  else s

/-- The sweep: motor 0 up, motor 1 down, each wrapping at int32 (46_calibration.md R333). -/
def calSweep (s : State) : State :=
  let p0 := BitVec.ofInt 32 ((s.refP.pos.get 0).toInt + s.cfg.calStep)
  let p1 := BitVec.ofInt 32 ((s.refP.pos.get 1).toInt - s.cfg.calStep)
  { s with refP := { s.refP with pos := ⟨p0, p1⟩ } }

/-- `cal_continue1()` (46_calibration.md R333, R334). -/
def calContinue1 (s : State) : State := calCheck (calSweep s)

/-- `cal_pause2()` (46_calibration.md R335). -/
def calPause2 (s : State) : State :=
  let n := s.cal.pause + 1
  if n.toNat = s.cfg.pause2Ticks then { s with cal := { s.cal with pause := 0, phase := .continue2 } }
  else { s with cal := { s.cal with pause := n } }

/-- `cal_continue2()` (46_calibration.md R336; STORE, 47_host_interface.md R375). -/
def calContinue2 (s : State) : State :=
  let t := { s with refP := { s.refP with onoff := s.cal.savedOnoff } }
  let u := (t.emit (.store t.cfg.regionDefault t.mem)).emit (.store t.cfg.regionActive t.mem)
  { u with cal := { u.cal with phase := .stop } }.putRxEnabled true

/-- The body of a phase (46_calibration.md R330, R337). -/
def calPhaseBody (p : CalphCode) (s : State) : State :=
  match p with
  | .stop => s
  | .start => calStart s
  | .pause1 => calPause1 s
  | .continue1 => calContinue1 s
  | .pause2 => calPause2 s
  | .continue2 => calContinue2 s

/-- `calibration_step()` (46_calibration.md R330). -/
def calibrationStep (s : State) : State := calPhaseBody s.cal.phase s

/-- CALPH.STOP: no action (46_calibration.md R337). -/
def execCalphStop (s : State) : Result := .next (calPhaseBody .stop s)

/-- CALPH.START (46_calibration.md R331). -/
def execCalphStart (s : State) : Result := .next (calPhaseBody .start s)

/-- CALPH.PAUSE1 (46_calibration.md R332). -/
def execCalphPause1 (s : State) : Result := .next (calPhaseBody .pause1 s)

/-- CALPH.CONTINUE1 (46_calibration.md R333, R334). -/
def execCalphContinue1 (s : State) : Result := .next (calPhaseBody .continue1 s)

/-- CALPH.PAUSE2 (46_calibration.md R335). -/
def execCalphPause2 (s : State) : Result := .next (calPhaseBody .pause2 s)

/-- CALPH.CONTINUE2 (46_calibration.md R336). -/
def execCalphContinue2 (s : State) : Result := .next (calPhaseBody .continue2 s)

end Sys2Proof.Machine
end

