-- ==== Sys2Proof/Machine/Encoder.lean ====
section
/-! DEFINITION. The Encoder Unwrapper, `encoder_update(k)` (43_encoder.md R250 to R255). -/

namespace Sys2Proof

/-- Q3, three quarters of a turn (43_encoder.md). -/
def q3 : Int := 3 * turn / 4

/-- Q1, a quarter of a turn (43_encoder.md). -/
def q1 : Int := turn / 4

/-- The angle field of an encoder word, scaled to 16 bits (43_encoder.md R252: `a` and `a16`). -/
def angle16 (shift bits : Nat) (w : W32) : Nat := w.toNat / 2 ^ shift % 2 ^ bits * 2 ^ (16 - bits)

/-- The raw angle, `wrap16(a16 + enc_off[k])` (43_encoder.md R252). -/
def rawAngle (shift bits : Nat) (off : W16) (w : W32) : W16 := BitVec.ofInt 16 (angle16 shift bits w + off.toInt)

end Sys2Proof

namespace Sys2Proof.Machine

open Sys2Proof

/-- Reset of last-known values, once (43_encoder.md R250). -/
def clearLast (s : State) : State :=
  if s.enc.resetLast then { s with enc := { s.enc with last := ⟨0, 0, 0⟩, resetLast := false } } else s

/-- `accept(k, raw, t)` (43_encoder.md R255). -/
def acceptSample (k : Fin 3) (raw t : W16) (s : State) : State :=
  let p := t.toInt * turn + raw.toInt
  let pos := BitVec.ofInt 32 (qmul (s.mem.encMult.get k).toInt p)
  { s with
    enc := { s.enc with noise := s.enc.noise.set k 0, last := s.enc.last.set k raw }
    meas := { s.meas with turns := s.meas.turns.set k t, pos := s.meas.pos.set k pos } }

/-- Delta, turn unwrapping and noise rejection of a valid sample (43_encoder.md R253, R254). -/
def unwrapSample (k : Fin 3) (raw : W16) (s : State) : State :=
  let delta := raw.toInt - (s.enc.last.get k).toInt
  let t := s.meas.turns.get k
  if q3 < delta then acceptSample k raw (t - 1) s
  else if delta < -q3 then acceptSample k raw (t + 1) s
  else if q1 < iabs delta then
    let n := s.enc.noise.get k + 1
    if n.toNat < noiseLimit then { s with enc := { s.enc with noise := s.enc.noise.set k n } }
    else acceptSample k raw t s
  else acceptSample k raw t s

/-- `encoder_update(k)` (43_encoder.md R250 to R255): the reset flag first, then the validity check, then the sample. -/
def encoderUpdate (k : Fin 3) (s : State) : State :=
  let s1 := clearLast s
  let w := s1.ports.encWord.get k
  if encValid s1.cfg.encAccept w then
    unwrapSample k (rawAngle s1.cfg.encShift s1.cfg.encBits (s1.mem.encOff.get k) w) s1
  else s1

end Sys2Proof.Machine
end

