-- ==== Sys2Proof/Machine/Framer.lean ====
section
/-! DEFINITION. The Protocol Framer (41_framer.md): one received byte in each framer state, the drain step, and the meanings
of the FRAMER rows. -/

namespace Sys2Proof.Machine

open Sys2Proof

/-- WaitStart, one byte: the marker test, then the query test (41_framer.md R201, R202). -/
def waitStartByte (b : Byte) (s : State) : State :=
  let w0 := s.framer.win.a1
  let w1 := s.framer.win.a2
  if w1 = s.cfg.startMark ∧ b = s.cfg.startMark then
    { s with framer := { s.framer with win := ⟨0, 0, 0⟩, fstate := .waitId } }
  else
    let t := { s with framer := { s.framer with win := ⟨w0, w1, b⟩ } }
    if (⟨w0, w1, b⟩ : Three Byte) = s.cfg.querySeq then enterCallback .info .callbackInfo t else t

/-- WaitId, one byte: the address (41_framer.md R203). -/
def waitIdByte (b : Byte) (s : State) : State :=
  let t := s.putForMe (b == s.mem.nodeAddr || b == s.cfg.broadcastAddr)
  { t with framer := { t.framer with fstate := .waitLength } }

/-- WaitLength, one byte: an invalid length discards the frame (41_framer.md R204), a valid one starts Receive or Unload
(R205). -/
def waitLengthByte (b : Byte) (s : State) : State :=
  if b.toNat ≤ 1 ∨ maxFrame < b.toNat then
    { s with framer := { s.framer with flen := 0, fidx := 0, forMe := false, fstate := .waitStart } }
  else if s.framer.forMe then
    { s with framer := { s.framer with flen := b, fidx := 0, fstate := .receive } }
  else
    { s with framer := { s.framer with flen := b, fidx := 0, unloadCnt := b, fstate := .unload } }

/-- `frame_complete()`: commit the frame and call the command processor (41_framer.md R207). -/
def frameComplete (s : State) : State :=
  let len := s.framer.flen
  enterCallback .frame (.callbackFrame len)
    { s with
      rxc := { buf := memCopy s.framer.fbuf len.toNat s.rxc.buf, len := len, ready := true }
      framer := { s.framer with fstate := .waitStart, fidx := 0, flen := 0 }
      drainFrames := s.drainFrames + 1 }

/-- Receive, one payload byte (41_framer.md R206). An index outside the buffer faults (notes/assumptions/8.md). -/
def receiveByte (b : Byte) (s : State) : Result :=
  if s.framer.fidx.toNat < maxFrame then
    let buf := memWrite s.framer.fbuf s.framer.fidx.toNat b
    let i := s.framer.fidx + 1
    let t := { s with framer := { s.framer with fbuf := buf, fidx := i } }
    .next (if i = s.framer.flen then frameComplete t else t)
  else .fault .bufferBounds

/-- `unload_complete()`: one pulse of the flow-control line, back to WaitStart (41_framer.md R211). -/
def unloadComplete (s : State) : State :=
  let low := { s with ports := { s.ports with flowctl := false } }
  let high := { low with ports := { low.ports with flowctl := true } }
  { high.emit .flowctlPulse with
    framer := { high.framer with fstate := .waitStart, flen := 0, fidx := 0 }
    drainFrames := high.drainFrames + 1 }

/-- Unload, one skipped byte; its value is ignored (41_framer.md R210). -/
def unloadByte (s : State) : State :=
  let n := s.framer.unloadCnt - 1
  let t := { s with framer := { s.framer with unloadCnt := n } }
  if n = 0 then unloadComplete t else t

/-- The effect of one byte in a framer state (41_framer.md R200). -/
def framerByteIn (f : FramerCode) (b : Byte) (s : State) : Result :=
  match f with
  | .waitStart => .next (waitStartByte b s)
  | .waitId => .next (waitIdByte b s)
  | .waitLength => .next (waitLengthByte b s)
  | .receive => receiveByte b s
  | .unload => .next (unloadByte s)

/-- `framer_byte(b)`: dispatch on `fstate` (41_framer.md R200). -/
def framerByte (b : Byte) (s : State) : Result := framerByteIn s.framer.fstate b s

/-- One step of the drain loop (41_framer.md R216, R217). -/
def drainStep (s : State) : Result :=
  if s.drainFrames.toNat < s.cfg.framesPerDrain then
    match s.fifoPop with
    | some (b, t) => framerByte b t
    | none => .next (drainEnd s)
  else .next (drainEnd s)

/-- A FRAMER code as an instruction: the byte is the oldest of the receive FIFO, consumed as the DRAIN step consumes it; with
no byte there is nothing to parse and nothing changes (DEDUCED, notes/assumptions/6.md). -/
def framerInstr (f : FramerCode) (s : State) : Result :=
  match s.fifoPop with
  | some (b, t) => framerByteIn f b t
  | none => .next s

/-- FRAMER.WaitStart (41_framer.md R201, R202). -/
def execFramerWaitStart (s : State) : Result := framerInstr .waitStart s

/-- FRAMER.WaitId (41_framer.md R203). -/
def execFramerWaitId (s : State) : Result := framerInstr .waitId s

/-- FRAMER.WaitLength (41_framer.md R204, R205). -/
def execFramerWaitLength (s : State) : Result := framerInstr .waitLength s

/-- FRAMER.Receive (41_framer.md R206, R207). -/
def execFramerReceive (s : State) : Result := framerInstr .receive s

/-- FRAMER.Unload (41_framer.md R210, R211). -/
def execFramerUnload (s : State) : Result := framerInstr .unload s

end Sys2Proof.Machine
end

