-- ==== Sys2Proof/Machine/Motor.lean ====
section
/-! DEFINITION. The Motor Control Engine (44_motor_control.md): the PID primitive, the six modes, the input override, the
output stage, and the meanings of the MODE and INPUT rows. -/

namespace Sys2Proof.Machine

open Sys2Proof

/-- The loop type of a PID evaluation (44_motor_control.md R271, R272). -/
inductive Loop where
  | posl | currl
  deriving DecidableEq, Repr

/-- The integral sum of a loop of motor m (44_motor_control.md R272). -/
def loopInt (l : Loop) (m : Fin 2) (p : PidRegs) : W32 :=
  match l with
  | .posl => p.posInt.get m
  | .currl => p.currInt.get m

/-- The previous error of a loop of motor m (44_motor_control.md R272). -/
def loopEprev (l : Loop) (m : Fin 2) (p : PidRegs) : W32 :=
  match l with
  | .posl => p.posEprev.get m
  | .currl => p.currEprev.get m

/-- Store the integral sum and the previous error of a loop of motor m (44_motor_control.md R271). -/
def loopStore (l : Loop) (m : Fin 2) (int eprev : W32) (p : PidRegs) : PidRegs :=
  match l with
  | .posl => { p with posInt := p.posInt.set m int, posEprev := p.posEprev.set m eprev }
  | .currl => { p with currInt := p.currInt.set m int, currEprev := p.currEprev.set m eprev }

/-- The saturation limit of a loop (44_motor_control.md R271). -/
def loopSat (l : Loop) (c : Config) : Int :=
  match l with
  | .posl => c.posIntSat
  | .currl => c.currIntSat

/-- The proportional term: full precision up to P_THRESH, low precision above (44_motor_control.md R271, R273). -/
def pTerm (c : Config) (kp e : Int) : Int :=
  if iabs e ≤ c.pThresh then qmul kp e
  else wrap32 (asr (kp * asr e c.pPreshift) c.pPostshift)

/-- `pid(L, m, g, e_in)`: the result and the state with the accumulators stored (44_motor_control.md R271). -/
def pid (l : Loop) (m : Fin 2) (g : Gains) (eIn : Int) (s : State) : Int × State :=
  let e := wrap32 eIn
  let sat := loopSat l s.cfg
  let int := clamp ((loopInt l m s.pid).toInt + e) (-sat) sat
  let pOut := pTerm s.cfg g.kp.toInt e
  let iOut := qmul g.ki.toInt int
  let dOut := qmul g.kd.toInt (e - (loopEprev l m s.pid).toInt)
  (wrap32 (pOut + iOut + dOut),
   { s with pid := loopStore l m (BitVec.ofInt 32 int) (BitVec.ofInt 32 e) s.pid })

/-- Sensor m is motor m's sensor (44_motor_control.md R280). -/
def sensorOf (m : Fin 2) : Fin 3 :=
  match m with
  | 0 => 0
  | 1 => 1

/-- The position error of motor m (44_motor_control.md R280). -/
def posError (m : Fin 2) (s : State) : Int := (s.refC.pos.get m).toInt - (s.meas.pos.get (sensorOf m)).toInt

/-- The deflection error of motor m: the reference offset by the shaft sensor (44_motor_control.md R281). -/
def deflError (m : Fin 2) (s : State) : Int :=
  (s.refC.pos.get m).toInt + (s.meas.pos.get 2).toInt - (s.meas.pos.get (sensorOf m)).toInt

/-- The inner current loop of a cascade, with the reference clamped to the current limit (44_motor_control.md R282). -/
def innerLoop (m : Fin 2) (g : Gains) (iRef : Int) (s : State) : Int × State :=
  let lim : Int := s.mem.currLimit.toNat
  pid .currl m g (clamp iRef (-lim) lim - (s.meas.curr.get m).toInt) s

/-- 44_motor_control.md R280. -/
def modePosition (m : Fin 2) (s : State) : Int × State := pid .posl m s.mem.gPos (posError m s) s

/-- 44_motor_control.md R281. -/
def modeDeflection (m : Fin 2) (s : State) : Int × State := pid .posl m s.mem.gDefl (deflError m s) s

/-- 44_motor_control.md R282. -/
def modePosCurr (m : Fin 2) (s : State) : Int × State :=
  let r := pid .posl m s.mem.gPos (posError m s) s
  innerLoop m s.mem.gCurr r.1 r.2

/-- 44_motor_control.md R283. -/
def modeDeflCurr (m : Fin 2) (s : State) : Int × State :=
  let r := pid .posl m s.mem.gDefl (deflError m s) s
  innerLoop m s.mem.gDcurr r.1 r.2

/-- 44_motor_control.md R284. -/
def modeCurrent (m : Fin 2) (s : State) : Int × State :=
  pid .currl m s.mem.gCurr ((s.refC.pos.get m).toInt - (s.meas.curr.get m).toInt) s

/-- 44_motor_control.md R285. -/
def modePwm (m : Fin 2) (s : State) : Int × State := ((s.refC.pos.get m).toInt, s)

/-- The command of a control mode; a reserved mode commands 0 and changes no accumulator (44_motor_control.md R270, R286). -/
def modeCommand (c : Option ModeCode) (m : Fin 2) (s : State) : Int × State :=
  match c with
  | some .position => modePosition m s
  | some .pwm => modePwm m s
  | some .current => modeCurrent m s
  | some .posCurr => modePosCurr m s
  | some .deflection => modeDeflection m s
  | some .deflCurr => modeDeflCurr m s
  | none => (0, s)

/-- The command after the clamp and, but in PWM mode, the derating (44_motor_control.md R293). -/
def outputValue (isPwm : Bool) (c : Config) (limit : Byte) (u : Int) : Int :=
  let v := clamp u (-c.pwmMax) c.pwmMax
  if isPwm then v else tdiv (v * limit.toNat) 100

/-- `split(m, u)`: direction, magnitude, sign, event (44_motor_control.md R294). -/
def split (m : Fin 2) (u : Int) (s : State) : State :=
  let dir := decide (u < 0)
  let mag : W16 := BitVec.ofInt 16 (iabs u)
  let sign := if u < 0 then Sign.neg else Sign.pos
  let d := { s.drive with dir := s.drive.dir.set m dir, mag := s.drive.mag.set m mag, sign := s.drive.sign.set m sign }
  { s with drive := d }.emit (.pwm m dir mag)

/-- `output_stage(m, u, mode)` (44_motor_control.md R293, R294). -/
def outputStage (m : Fin 2) (u : Int) (isPwm : Bool) (s : State) : State :=
  split m (outputValue isPwm s.cfg s.drive.pwmLimit u) s

/-- The motor step of motor m in a control mode (44_motor_control.md R270). -/
def motorStepIn (c : Option ModeCode) (m : Fin 2) (s : State) : State :=
  let r := modeCommand c m s
  outputStage m r.1 (decide (c = some .pwm)) r.2

/-- `motor_control(m)`: the mode is read once from `Mem.ctrl_mode` (44_motor_control.md R270). -/
def motorControl (m : Fin 2) (s : State) : State := motorStepIn (modeCodeOf s.mem.ctrlMode) m s

/-- Run a motor step on the motor `seq_idx` names; a third motor does not exist (notes/assumptions/7.md). -/
def onMotor (f : Fin 2 → State → State) (s : State) : Result :=
  match motorOf s.seq.idx with
  | some m => .next (f m s)
  | none => .fault .noSuchMotor

/-- The reference the override gives motor m: the shaft position, clamped if the limits are enabled
(44_motor_control.md R290). -/
def overrideRef (m : Fin 2) (s : State) : W32 :=
  let r := s.meas.pos.get 2
  if s.mem.posLimEn then
    BitVec.ofInt 32 (max (s.mem.posLimInf.get m).toInt (min r.toInt (s.mem.posLimSup.get m).toInt))
  else r

/-- The ENCODER3 override of both committed references (44_motor_control.md R290). -/
def overrideRefs (s : State) : State :=
  { s with refC := { s.refC with pos := ⟨overrideRef 0 s, overrideRef 1 s⟩ } }

/-- `input_override()`: ENCODER3 overrides, every other value acts as EXTERNAL (44_motor_control.md R290, R291). -/
def inputOverride (s : State) : State :=
  match inputCodeOf s.mem.inputMode with
  | some .encoder3 => overrideRefs s
  | some .external => s
  | none => s

/-! The MODE rows as instructions: the motor step of the motor `seq_idx` names, in the row's mode; the INPUT rows: the body of
INPUT_OVR in the row's input mode (DEDUCED, notes/assumptions/5.md). -/

/-- MODE.POSITION (44_motor_control.md R280, R293, R294). -/
def execModePosition (s : State) : Result := onMotor (motorStepIn (some .position)) s

/-- MODE.PWM (44_motor_control.md R285, R293, R294). -/
def execModePwm (s : State) : Result := onMotor (motorStepIn (some .pwm)) s

/-- MODE.CURRENT (44_motor_control.md R284, R293, R294). -/
def execModeCurrent (s : State) : Result := onMotor (motorStepIn (some .current)) s

/-- MODE.POS_CURR (44_motor_control.md R282, R293, R294). -/
def execModePosCurr (s : State) : Result := onMotor (motorStepIn (some .posCurr)) s

/-- MODE.DEFLECTION (44_motor_control.md R281, R293, R294). -/
def execModeDeflection (s : State) : Result := onMotor (motorStepIn (some .deflection)) s

/-- MODE.DEFL_CURR (44_motor_control.md R283, R293, R294). -/
def execModeDeflCurr (s : State) : Result := onMotor (motorStepIn (some .deflCurr)) s

/-- INPUT.EXTERNAL: the references come from the host; nothing is overridden (44_motor_control.md R291). -/
def execInputExternal (s : State) : Result := .next s

/-- INPUT.ENCODER3 (44_motor_control.md R290). -/
def execInputEncoder3 (s : State) : Result := .next (overrideRefs s)

end Sys2Proof.Machine
end

