-- ==== Sys2Proof/Machine/Scheduler.lean ====
section
/-! DEFINITION. The Real-Time Scheduler (40_scheduler.md): the meanings of the SEQ rows, one micro-operation each, and the
micro-operation of a sequencer position. -/

namespace Sys2Proof.Machine

open Sys2Proof

/-- SEQ.IDLE: start a requested tick, else hold (40_scheduler.md R171). -/
def execSeqIdle (s : State) : Result := .next (if s.tickPending then enterTick s else s)

/-- SEQ.ADC_START (40_scheduler.md R172). -/
def execSeqAdcStart (s : State) : Result := .next (((s.putAdcReady false).emit .adcStart).gotoCode .drainB)

/-- SEQ.DRAIN_B: an unconditional drain (40_scheduler.md R173). -/
def execSeqDrainB (s : State) : Result := .next (enterDrain ⟨.enc, 0⟩ s)

/-- SEQ.ENC: unwrap the sample of sensor `seq_idx` (40_scheduler.md R174). -/
def execSeqEnc (s : State) : Result := .next ((encoderUpdate s.seq.idx s).gotoCode .pollC)

/-- The position after the poll of sensor k (40_scheduler.md R175). -/
def afterPollC (k : Fin 3) : SeqPos :=
  match k with
  | 0 => ⟨.enc, 1⟩
  | 1 => ⟨.enc, 2⟩
  | 2 => ⟨.inputOvr, 0⟩

/-- SEQ.POLL_C (40_scheduler.md R175). -/
def execSeqPollC (s : State) : Result := .next (poll (afterPollC s.seq.idx) s)

/-- SEQ.INPUT_OVR (40_scheduler.md R176). -/
def execSeqInputOvr (s : State) : Result := .next ((inputOverride s).goto ⟨.motor, 0⟩)

/-- SEQ.MOTOR: the motor step of motor `seq_idx` (40_scheduler.md R177). -/
def execSeqMotor (s : State) : Result := onMotor (fun m t => (motorControl m t).gotoCode .pollD) s

/-- The position after the poll of motor m (40_scheduler.md R178). -/
def afterPollD (m : Fin 3) : SeqPos := if m.val < 1 then ⟨.motor, 1⟩ else ⟨.adcWait, 0⟩

/-- SEQ.POLL_D (40_scheduler.md R178). -/
def execSeqPollD (s : State) : Result := .next (poll (afterPollD s.seq.idx) s)

/-- SEQ.ADC_WAIT: a completed conversion first, then a pending receive flag, else hold (40_scheduler.md R179). -/
def execSeqAdcWait (s : State) : Result :=
  .next
    (if s.ports.adcReady then s.gotoCode .afe
     else if s.rxEnabled && s.rxFlag then enterDrain ⟨.adcWait, 0⟩ s
     else s)

/-- SEQ.AFE (40_scheduler.md R180). -/
def execSeqAfe (s : State) : Result := .next ((analogFrontEnd s).gotoCode .cal)

/-- The calibration sub-rate divider (40_scheduler.md R181). -/
def calTick (s : State) : State :=
  if s.calDiv + 1 = s.cfg.calDiv then calibrationStep { s with calDiv := 0 } else { s with calDiv := s.calDiv + 1 }

/-- SEQ.CAL (40_scheduler.md R181). -/
def execSeqCal (s : State) : Result := .next ((calTick s).gotoCode .swap)

/-- Snapshot, then copy pending into committed, then drive the enables (40_scheduler.md R182). -/
def snapshotSwap (s : State) : State :=
  let t := { s with measPrev := s.meas, refPrev := s.refC, refC := s.refP }
  t.emit (.driveEn t.driveEn)

/-- SEQ.SWAP (40_scheduler.md R182, R183). -/
def execSeqSwap (s : State) : Result := .next (endTick (snapshotSwap s))

/-- SEQ.DRAIN (41_framer.md R216). -/
def execSeqDrain (s : State) : Result := drainStep s

/-- SEQ.CALLBACK: a hold; the core has no step until the host returns (47_host_interface.md R366). -/
def execSeqCallback (s : State) : Result := .next s

/-- The micro-operation of a sequencer position (30_encoding.md R140). -/
def microOp (c : SeqCode) (s : State) : Result :=
  match c with
  | .idle => execSeqIdle s
  | .adcStart => execSeqAdcStart s
  | .drainB => execSeqDrainB s
  | .enc => execSeqEnc s
  | .pollC => execSeqPollC s
  | .inputOvr => execSeqInputOvr s
  | .motor => execSeqMotor s
  | .pollD => execSeqPollD s
  | .adcWait => execSeqAdcWait s
  | .afe => execSeqAfe s
  | .cal => execSeqCal s
  | .swap => execSeqSwap s
  | .drain => execSeqDrain s
  | .callback => execSeqCallback s

end Sys2Proof.Machine
end

