-- ==== Sys2Proof/Machine/HostInterface.lean ====
section
/-! DEFINITION. The host and environment transactions (47_host_interface.md) and RESET (70_reset_and_hazards.md R410): the
meanings of the TXN rows. -/

namespace Sys2Proof.Machine

open Sys2Proof

/-- RESET, in every position: every piece of state to its reset value, Mem to MEM_AT_RESET; no event, and the trace, the
transactions still to come and the parameters are kept (70_reset_and_hazards.md R410). -/
def execReset (s : State) : Result :=
  .next { State.reset with mem := s.cfg.memAtReset, trace := s.trace, txns := s.txns, cfg := s.cfg }

/-- TIMER, in every position (40_scheduler.md R170). -/
def execTimer (s : State) : Result := .next (s.putTickPending true)

/-- RXB b, in every position: the flag is set even when the byte is lost (47_host_interface.md R368). -/
def execRxb (b : Byte) (s : State) : Result := .next ((s.fifoPush b).putRxFlag true)

/-- ENC k, w, in every position (47_host_interface.md R370); an index above 2 is a malformed word and has no effect (R373). -/
def execEnc (k : Byte) (w : W32) (s : State) : Result :=
  match index3 k with
  | some i => .next { s with ports := { s.ports with encWord := s.ports.encWord.set i w } }
  | none => .next s

/-- ADC c, v, in every position (47_host_interface.md R369); an index above 2 is a malformed word and has no effect (R373). -/
def execAdc (c : Byte) (v : W16) (s : State) : Result :=
  match index3 c with
  | some i => .next { s with ports := { s.ports with adcRaw := s.ports.adcRaw.set i v } }
  | none => .next s

/-- ADCDONE, in every position (47_host_interface.md R369). -/
def execAdcdone (s : State) : Result := .next (s.putAdcReady true)

/-- WR a, v, taken in IDLE and CALLBACK only (47_host_interface.md R360, R361). -/
def execWr (a : Byte) (v : W32) (s : State) : Result := .next (if hostMayAct s then regWrite a v s else s)

/-- RD a, taken in IDLE and CALLBACK only (47_host_interface.md R360, R365). -/
def execRd (a : Byte) (s : State) : Result := .next (if hostMayAct s then s.emit (.regRdData a (regRead a s)) else s)

/-- HDONE, taken in CALLBACK only (47_host_interface.md R367). -/
def execHdone (s : State) : Result := .next (if s.seq.code = .callback then leaveCallback s else s)

/-- STEP: the micro-operation of the current position (47_host_interface.md R372). -/
def execStep (s : State) : Result := microOp s.seq.code s

end Sys2Proof.Machine
end

