-- ==== Sys2Proof/Machine/Dispatch.lean ====
section
/-! DEFINITION. The dispatch: one arm for each constructor of `Instr`, each one direct call of its meaning. -/

namespace Sys2Proof.Machine

open Sys2Proof

-- The meaning of an instruction in a state.
def exec (i : Instr) (s : State) : Host.Outcome State Fault Refusal :=
  match i with
  -- TXN
  | .reset => Sys2Proof.Machine.execReset s
  | .timer => Sys2Proof.Machine.execTimer s
  | .rxb b => Sys2Proof.Machine.execRxb b s
  | .enc k w => Sys2Proof.Machine.execEnc k w s
  | .adc c v => Sys2Proof.Machine.execAdc c v s
  | .adcdone => Sys2Proof.Machine.execAdcdone s
  | .wr a v => Sys2Proof.Machine.execWr a v s
  | .rd a => Sys2Proof.Machine.execRd a s
  | .hdone => Sys2Proof.Machine.execHdone s
  | .step => Sys2Proof.Machine.execStep s
  -- SEQ
  | .seqIdle => Sys2Proof.Machine.execSeqIdle s
  | .seqAdcStart => Sys2Proof.Machine.execSeqAdcStart s
  | .seqDrainB => Sys2Proof.Machine.execSeqDrainB s
  | .seqEnc => Sys2Proof.Machine.execSeqEnc s
  | .seqPollC => Sys2Proof.Machine.execSeqPollC s
  | .seqInputOvr => Sys2Proof.Machine.execSeqInputOvr s
  | .seqMotor => Sys2Proof.Machine.execSeqMotor s
  | .seqPollD => Sys2Proof.Machine.execSeqPollD s
  | .seqAdcWait => Sys2Proof.Machine.execSeqAdcWait s
  | .seqAfe => Sys2Proof.Machine.execSeqAfe s
  | .seqCal => Sys2Proof.Machine.execSeqCal s
  | .seqSwap => Sys2Proof.Machine.execSeqSwap s
  | .seqDrain => Sys2Proof.Machine.execSeqDrain s
  | .seqCallback => Sys2Proof.Machine.execSeqCallback s
  -- FRAMER
  | .framerWaitStart => Sys2Proof.Machine.execFramerWaitStart s
  | .framerWaitId => Sys2Proof.Machine.execFramerWaitId s
  | .framerWaitLength => Sys2Proof.Machine.execFramerWaitLength s
  | .framerReceive => Sys2Proof.Machine.execFramerReceive s
  | .framerUnload => Sys2Proof.Machine.execFramerUnload s
  -- MODE
  | .modePosition => Sys2Proof.Machine.execModePosition s
  | .modePwm => Sys2Proof.Machine.execModePwm s
  | .modeCurrent => Sys2Proof.Machine.execModeCurrent s
  | .modePosCurr => Sys2Proof.Machine.execModePosCurr s
  | .modeDeflection => Sys2Proof.Machine.execModeDeflection s
  | .modeDeflCurr => Sys2Proof.Machine.execModeDeflCurr s
  -- INPUT
  | .inputExternal => Sys2Proof.Machine.execInputExternal s
  | .inputEncoder3 => Sys2Proof.Machine.execInputEncoder3 s
  -- CALPH
  | .calphStop => Sys2Proof.Machine.execCalphStop s
  | .calphStart => Sys2Proof.Machine.execCalphStart s
  | .calphPause1 => Sys2Proof.Machine.execCalphPause1 s
  | .calphContinue1 => Sys2Proof.Machine.execCalphContinue1 s
  | .calphPause2 => Sys2Proof.Machine.execCalphPause2 s
  | .calphContinue2 => Sys2Proof.Machine.execCalphContinue2 s

end Sys2Proof.Machine
end

