-- ==== Sys2Proof/Machine/Fetch.lean ====
section
/-! DEFINITION. What a step fetches: the transaction the environment presents next (47_host_interface.md R360, R373), and the
placing of a word where the next step fetches it. -/

namespace Sys2Proof.Machine

open Sys2Proof

/-- What the next step finds. -/
inductive Fetched where
  /-- The parameters break 00_scope.md R11: no step is given. -/
  | badParameters
  /-- The environment presents no transaction. -/
  | nothing
  /-- The word is not well formed: it is consumed without effect (47_host_interface.md R373). -/
  | ignored (s : State)
  /-- A well-formed transaction, and the state with the word consumed. -/
  | run (i : Instr) (s : State)
  deriving DecidableEq, Repr

/-- Take the oldest transaction word and decode it. -/
def fetch (s : State) : Fetched :=
  if s.cfg.valid then
    match s.txns with
    | [] => .nothing
    | w :: rest =>
      let t := { s with txns := rest }
      match decode (.txn w) with
      | .ok i => .run i t
      | .error _ => .ignored t
  else .badParameters

/-- The word of STEP (30_encoding.md R133). -/
def stepWord : TxnWord := 0x0A00000000000000

/-- Place a table row's word so that the next step runs it: a transaction word is presented next; a SEQ code becomes the
sequencer position, with STEP presented next (notes/assumptions/4.md). -/
def placeWord (s : State) (nbits w : Nat) : State :=
  match tableWord nbits w with
  | some (.txn x) => { s with txns := x :: s.txns }
  | some (.seq c) =>
    match seqCodeOf c with
    | some p => { s with seq := { s.seq with code := p }, txns := stepWord :: s.txns }
    | none => s
  | some (.framer _) | some (.mode _) | some (.input _) | some (.calph _) | none => s

end Sys2Proof.Machine
end

