-- ==== Sys2Proof/Machine/Step.lean ====
section
/-! DEFINITION. One step of the machine: the next transaction of the environment takes effect (60_exceptions.md R385). -/

namespace Sys2Proof.Machine

open Sys2Proof

/-- One step: fetch the next transaction and run it. Nothing presented, or a word that is not well formed, changes nothing
else (47_host_interface.md R373); a parameter set that breaks 00_scope.md R11 is refused. -/
def step (s : State) : Host.Outcome State Fault Refusal :=
  match fetch s with
  | .badParameters => .refused .badParameters
  | .nothing => .next s
  | .ignored t => .next t
  | .run i t => exec i t

/-- The state with a table row's word placed where the next step fetches (Machine/Fetch.lean, `placeWord`). -/
def State.withFetchWord (s : State) (nbits w : Nat) : State := placeWord s nbits w

end Sys2Proof.Machine
end

