-- ==== Sys2Proof/Machine/Asm.lean ====
section
/-! DEFINITION. The assembler notation and the pseudo-instructions (30_encoding.md R162, R163). A line is a list of
characters; a pseudo-instruction becomes transactions and RUNs. -/

namespace Sys2Proof.Machine

open Sys2Proof

/-- One item of an assembled program: a transaction, or the pseudo-instruction RUN (30_encoding.md R163). -/
inductive AsmItem where
  | txn (i : Instr)
  | run
  deriving DecidableEq, Repr

/-! ### Expansions (30_encoding.md R163) -/

/-- FRAME a, b0, ..., bn-1. -/
def asmFrame (a : Byte) (bs : List Byte) : List AsmItem :=
  ((0x3A : Byte) :: 0x3A :: a :: BitVec.ofNat 8 bs.length :: bs).map fun b => .txn (.rxb b)

/-- ADCV v, i0, i1. -/
def asmAdcv (v i0 i1 : W16) : List AsmItem := [.txn (.adc 0 v), .txn (.adc 1 i0), .txn (.adc 2 i1), .txn .adcdone]

/-- ENCS w0, w1, w2. -/
def asmEncs (w0 w1 w2 : W32) : List AsmItem := [.txn (.enc 0 w0), .txn (.enc 1 w1), .txn (.enc 2 w2)]

/-- TICK. -/
def asmTick : List AsmItem := [.txn .timer, .run]

/-- TICKA v, i0, i1. -/
def asmTicka (v i0 i1 : W16) : List AsmItem := asmTick ++ asmAdcv v i0 i1 ++ [.run]

/-- RUN: STEP while the core is at none of the three holds, at most `fuel` times (30_encoding.md R163). -/
def asmRun : Nat → State → Result
  | 0, s => .next s
  | fuel + 1, s =>
    if atHold s then .next s
    else match exec .step s with
      | .next t => asmRun fuel t
      | .fault r => .fault r
      | .refused r => .refused r

/-- Run the items of a program in order, each RUN with the same bound. -/
def asmExec (fuel : Nat) : List AsmItem → State → Result
  | [], s => .next s
  | x :: rest, s =>
    match (match x with | .txn i => exec i s | .run => asmRun fuel s) with
    | .next t => asmExec fuel rest t
    | .fault r => .fault r
    | .refused r => .refused r

/-! ### Lines (30_encoding.md R162) -/

/-- The register names of 10_state.md R56, but RX_BUF_j, with their addresses. -/
def regNames : List (String × Nat) :=
  [("CTRL_MODE", 0x00), ("INPUT_MODE", 0x01), ("NODE_ADDR", 0x02), ("POS_LIM_EN", 0x03),
   ("POS_LIM_INF0", 0x04), ("POS_LIM_INF1", 0x05), ("POS_LIM_SUP0", 0x06), ("POS_LIM_SUP1", 0x07),
   ("CURR_LIMIT", 0x08), ("MAX_STIFF", 0x09),
   ("POS_KP", 0x10), ("POS_KI", 0x11), ("POS_KD", 0x12), ("DEFL_KP", 0x13), ("DEFL_KI", 0x14), ("DEFL_KD", 0x15),
   ("CURR_KP", 0x16), ("CURR_KI", 0x17), ("CURR_KD", 0x18), ("DCURR_KP", 0x19), ("DCURR_KI", 0x1A), ("DCURR_KD", 0x1B),
   ("ENC_OFF0", 0x20), ("ENC_OFF1", 0x21), ("ENC_OFF2", 0x22), ("ENC_MULT0", 0x24), ("ENC_MULT1", 0x25), ("ENC_MULT2", 0x26),
   ("REF_PEND_POS0", 0x30), ("REF_PEND_POS1", 0x31), ("REF_PEND_ONOFF", 0x32),
   ("REF_POS0", 0x34), ("REF_POS1", 0x35), ("REF_ONOFF", 0x36),
   ("REF_PREV_POS0", 0x38), ("REF_PREV_POS1", 0x39), ("REF_PREV_ONOFF", 0x3A),
   ("MEAS_POS0", 0x40), ("MEAS_POS1", 0x41), ("MEAS_POS2", 0x42), ("MEAS_CURR0", 0x44), ("MEAS_CURR1", 0x45),
   ("MEAS_VOLT", 0x46), ("MEAS_TURNS0", 0x48), ("MEAS_TURNS1", 0x49), ("MEAS_TURNS2", 0x4A),
   ("PREV_POS0", 0x50), ("PREV_POS1", 0x51), ("PREV_POS2", 0x52), ("PREV_CURR0", 0x54), ("PREV_CURR1", 0x55),
   ("PREV_VOLT", 0x56), ("PREV_TURNS0", 0x58), ("PREV_TURNS1", 0x59), ("PREV_TURNS2", 0x5A),
   ("PWM_LIMIT", 0x60), ("PWM_OUT0", 0x61), ("PWM_OUT1", 0x62), ("CAL_STATUS", 0x63), ("FRAMER_STATUS", 0x64),
   ("FLAGS", 0x65), ("CMD_CAL_START", 0x70), ("CMD_RESET_LAST", 0x71), ("RX_LEN", 0x78), ("RX_READY", 0x79)]

/-- The digits of a number in a base, most significant first; none if a character is no digit or there is none. -/
def asmDigits (base : Nat) : List Char → Option Nat → Option Nat
  | [], acc => acc
  | c :: rest, acc =>
    let d := if '0' ≤ c ∧ c ≤ '9' then c.toNat - 48
      else if 'a' ≤ c ∧ c ≤ 'f' then c.toNat - 87
      else if 'A' ≤ c ∧ c ≤ 'F' then c.toNat - 55
      else base
    if d < base then asmDigits base rest (some (acc.getD 0 * base + d)) else none

/-- A decimal or `0x` hexadecimal number. -/
def asmNat : List Char → Option Nat
  | '0' :: 'x' :: rest => asmDigits 16 rest none
  | cs => asmDigits 10 cs none

/-- A number of `n` bits. -/
def asmBits (n : Nat) (cs : List Char) : Option (BitVec n) :=
  match asmNat cs with
  | some v => if v < 2 ^ n then some (BitVec.ofNat n v) else none
  | none => none

/-- The value of a WR: a number of 32 bits, or a negative number as its 32-bit two's complement. -/
def asmValue : List Char → Option W32
  | '-' :: rest =>
    match asmNat rest with
    | some v => if v ≤ 2 ^ 31 then some (BitVec.ofInt 32 (-(v : Int))) else none
    | none => none
  | cs => asmBits 32 cs

/-- A register operand: a name of 10_state.md R56, RX_BUF_j among them, or an address. -/
def asmReg (cs : List Char) : Option Byte :=
  match regNames.find? (fun p => p.1.toList == cs) with
  | some p => some (BitVec.ofNat 8 p.2)
  | none =>
    match cs with
    | 'R' :: 'X' :: '_' :: 'B' :: 'U' :: 'F' :: '_' :: rest =>
      match asmDigits 10 rest none with
      | some j => if j < 32 then some (BitVec.ofNat 8 (0x80 + j)) else none
      | none => none
    | _ => asmBits 8 cs

/-- The line without its comment. -/
def asmStrip (cs : List Char) : List Char := cs.takeWhile (fun c => c != ';')

/-- The text without blanks at either end. -/
def asmTrim (cs : List Char) : List Char :=
  ((cs.dropWhile Char.isWhitespace).reverse.dropWhile Char.isWhitespace).reverse

/-- The operands of a comma-separated list, `cur` being the characters of the operand read so far, last first. -/
def asmSplit : List Char → List Char → List (List Char)
  | [], cur => [asmTrim cur.reverse]
  | c :: rest, cur => if c = ',' then asmTrim cur.reverse :: asmSplit rest [] else asmSplit rest (c :: cur)

/-- Every operand as a byte. -/
def asmBytes : List (List Char) → Option (List Byte)
  | [] => some []
  | c :: rest =>
    match asmBits 8 c, asmBytes rest with
    | some b, some bs => some (b :: bs)
    | _, _ => none

/-- The items of a mnemonic and its operands (30_encoding.md R162, R163). -/
def asmInstr (mn : String) (ops : List (List Char)) : Option (List AsmItem) :=
  match mn, ops with
  | "RESET", [] => some [.txn .reset]
  | "TIMER", [] => some [.txn .timer]
  | "RXB", [b] => do some [.txn (.rxb (← asmBits 8 b))]
  | "ENC", [k, w] => do some [.txn (.enc (← asmBits 8 k) (← asmBits 32 w))]
  | "ADC", [c, v] => do some [.txn (.adc (← asmBits 8 c) (← asmBits 16 v))]
  | "ADCDONE", [] => some [.txn .adcdone]
  | "WR", [r, v] => do some [.txn (.wr (← asmReg r) (← asmValue v))]
  | "RD", [r] => do some [.txn (.rd (← asmReg r))]
  | "HDONE", [] => some [.txn .hdone]
  | "STEP", [] => some [.txn .step]
  | "RUN", [] => some [.run]
  | "TICK", [] => some asmTick
  | "FRAME", a :: bs => do
    let l ← asmBytes bs
    if l.length < 256 then some (asmFrame (← asmBits 8 a) l) else none
  | "ADCV", [v, i, j] => do some (asmAdcv (← asmBits 16 v) (← asmBits 16 i) (← asmBits 16 j))
  | "ENCS", [u, v, w] => do some (asmEncs (← asmBits 32 u) (← asmBits 32 v) (← asmBits 32 w))
  | "TICKA", [v, i, j] => do some (asmTicka (← asmBits 16 v) (← asmBits 16 i) (← asmBits 16 j))
  | _, _ => none

/-- One line: nothing for a blank or comment line, none for a line that is no assembler line (30_encoding.md R162). -/
def asmLine (line : List Char) : Option (List AsmItem) :=
  let cs := asmTrim (asmStrip line)
  let mn := cs.takeWhile (fun c => !c.isWhitespace)
  let rest := asmTrim (cs.dropWhile (fun c => !c.isWhitespace))
  if mn.isEmpty then some []
  else asmInstr (String.ofList mn) (if rest.isEmpty then [] else asmSplit rest [])

/-- The transaction words of a program without RUN. -/
def asmWords : List AsmItem → List TxnWord
  | [] => []
  | .txn i :: rest => (match encode i with | .txn w => [w] | _ => []) ++ asmWords rest
  | .run :: rest => asmWords rest

end Sys2Proof.Machine
end

