-- ==== Sys2Proof/Safety.lean ====
section
/-! DEFINITION. What counts as a safe state and a safe run, in the terms the statements use: the invariant of the states a run
reaches, what the block waits for at a hold, the duties of the host, and the relations the statements name. -/

namespace Sys2Proof.Machine

open Sys2Proof

/-- The continuations a drain may save: those DRAIN_B, POLL_C, POLL_D and ADC_WAIT give (40_scheduler.md R173, R175, R178,
R179; 60_exceptions.md R389). -/
def drainReturns : List SeqPos :=
  [⟨.enc, 0⟩, ⟨.enc, 1⟩, ⟨.enc, 2⟩, ⟨.inputOvr, 0⟩, ⟨.motor, 1⟩, ⟨.adcWait, 0⟩]

/-- The phases in which reception is suspended: between Start and Continue2 (41_framer.md R218, 70_reset_and_hazards.md
R428). -/
def suspendedPhases : List CalphCode := [.pause1, .continue1, .pause2, .continue2]

/-- The invariant of the states a run from a legal state reaches. Each field names the rule it comes from. -/
structure Legal (s : State) : Prop where
  /-- The parameters pass 00_scope.md R11 and R19. -/
  params    : s.cfg.valid = true
  /-- A motor step names motor 0 or 1 (10_state.md R33, 40_scheduler.md R177, R178). -/
  motorIdx  : s.seq.code = .motor ∨ s.seq.code = .pollD → s.seq.idx ≠ 2
  /-- A drain returns to a continuation some yield point gave (60_exceptions.md R389). -/
  drainRet  : s.seq.code = .drain ∨ s.seq.code = .callback → s.drainRet ∈ drainReturns
  /-- A drain is never reached with reception suspended (41_framer.md R218). -/
  draining  : s.seq.code = .drain ∨ s.seq.code = .callback → s.rxEnabled = true
  /-- The core holds in CALLBACK exactly when a callback is in progress (10_state.md R38). -/
  callback  : s.seq.code = .callback ↔ s.cbKind ≠ .none
  /-- 10_state.md R35. -/
  frames    : s.drainFrames.toNat ≤ s.cfg.framesPerDrain
  /-- The index is below the length, which is at most MAX_FRAME (20_memory.md R104, 41_framer.md R206). -/
  receiving : s.framer.fstate = .receive → s.framer.fidx.toNat < s.framer.flen.toNat ∧ s.framer.flen.toNat ≤ maxFrame
  /-- 41_framer.md R210. -/
  unloading : s.framer.fstate = .unload → 1 ≤ s.framer.unloadCnt.toNat
  /-- The in-progress buffer is canonical and inside its 128 bytes (20_memory.md R104). -/
  fbuf      : memWf s.framer.fbuf = true ∧ memWithin maxFrame s.framer.fbuf = true
  /-- The committed buffer is canonical and inside its 128 bytes (20_memory.md R104). -/
  rxcBuf    : memWf s.rxc.buf = true ∧ memWithin maxFrame s.rxc.buf = true
  /-- 10_state.md R46. -/
  rxcLen    : s.rxc.len.toNat ≤ maxFrame
  /-- 10_state.md R55. -/
  fifo      : s.ports.rxFifo.length ≤ s.cfg.rxFifoDepth
  /-- 10_state.md R37. -/
  calDiv    : s.calDiv < s.cfg.calDiv
  /-- A run of noise rejections is accepted at its NOISE_LIMIT-th sample (43_encoder.md R254). -/
  noise     : ∀ k, (s.enc.noise.get k).toNat < noiseLimit
  /-- 10_state.md R51, 45_analog_derating.md R315. -/
  pwmLimit  : s.drive.pwmLimit.toNat ≤ 100
  /-- Anti-windup of the position loop (44_motor_control.md R274). -/
  posInt    : ∀ m, -s.cfg.posIntSat ≤ (s.pid.posInt.get m).toInt ∧ (s.pid.posInt.get m).toInt ≤ s.cfg.posIntSat
  /-- Anti-windup of the current loop (44_motor_control.md R274). -/
  currInt   : ∀ m, -s.cfg.currIntSat ≤ (s.pid.currInt.get m).toInt ∧ (s.pid.currInt.get m).toInt ≤ s.cfg.currIntSat
  /-- The magnitude is within PWM_MAX (44_motor_control.md R293, R294). -/
  pwmMag    : ∀ m, ((s.drive.mag.get m).toNat : Int) ≤ s.cfg.pwmMax
  /-- Direction and sign agree (44_motor_control.md R294). -/
  pwmSign   : ∀ m, s.drive.sign.get m = .neg ↔ s.drive.dir.get m = true
  /-- The flow-control line is at its idle level between steps (10_state.md R54). -/
  flowctl   : s.ports.flowctl = true
  /-- Reception is suspended exactly from Start to Continue2 (70_reset_and_hazards.md R428). -/
  session   : s.rxEnabled = false ↔ s.cal.phase ∈ suspendedPhases

/-- What the block waits for at a hold (60_exceptions.md R395). -/
inductive Awaited where
  /-- A tick request: TIMER. -/
  | timer
  /-- A completed conversion: ADCDONE (or, for a drain, RXB). -/
  | conversion
  /-- The return of the command processor: HDONE. -/
  | host
  deriving DecidableEq, Repr

/-- The awaited event of a hold, none where STEP has an effect (60_exceptions.md R395). -/
def awaited (s : State) : Option Awaited :=
  if atHold s then
    match s.seq.code with
    | .idle => some .timer
    | .adcWait => some .conversion
    | .callback => some .host
    | .adcStart | .drainB | .enc | .pollC | .inputOvr | .motor | .pollD | .afe | .cal | .swap | .drain => none
  else none

/-! ### Duties of the host (47_host_interface.md R374) -/

/-- The addresses of the 28 Mem fields (10_state.md R56). -/
def memAddresses : List Nat :=
  [0x00, 0x01, 0x02, 0x03, 0x04, 0x05, 0x06, 0x07, 0x08, 0x09,
   0x10, 0x11, 0x12, 0x13, 0x14, 0x15, 0x16, 0x17, 0x18, 0x19, 0x1A, 0x1B,
   0x20, 0x21, 0x22, 0x24, 0x25, 0x26]

/-- What one transaction does to the Mem addresses still to be written before the next TIMER: a RESET asks for all of them
again, a WR loads its own, and a TIMER must find none left, or the duty is broken (70_reset_and_hazards.md R420). -/
def bootLoad (todo : List Nat) (i : Instr) : Option (List Nat) :=
  match i with
  | .reset => some memAddresses
  | .wr a _ => some (todo.filter fun x => x != a.toNat)
  | .timer => if todo.isEmpty then some [] else none
  | .rxb _ | .enc _ _ | .adc _ _ | .adcdone | .rd _ | .hdone | .step
  | .seqIdle | .seqAdcStart | .seqDrainB | .seqEnc | .seqPollC | .seqInputOvr | .seqMotor
  | .seqPollD | .seqAdcWait | .seqAfe | .seqCal | .seqSwap | .seqDrain | .seqCallback
  | .framerWaitStart | .framerWaitId | .framerWaitLength | .framerReceive | .framerUnload
  | .modePosition | .modePwm | .modeCurrent | .modePosCurr | .modeDeflection | .modeDeflCurr
  | .inputExternal | .inputEncoder3
  | .calphStop | .calphStart | .calphPause1 | .calphContinue1 | .calphPause2 | .calphContinue2 => some todo

/-- The boot duty of a list of transactions, `todo` being the Mem addresses to be written before its first TIMER
(70_reset_and_hazards.md R420). -/
def bootDutyFrom : List Nat → List Instr → Bool
  | _, [] => true
  | todo, i :: rest =>
    match bootLoad todo i with
    | some left => bootDutyFrom left rest
    | none => false

/-- The boot duty of a list of transactions: between each RESET of the list and the first TIMER after it every Mem field is
written (70_reset_and_hazards.md R420, 47_host_interface.md R374). There the core is IDLE, so every WR has its effect. Of a
TIMER before the list's first RESET it asks nothing: the load it relies on came before the list. -/
def bootDuty (prog : List Instr) : Bool := bootDutyFrom [] prog

/-- The boot duty of a list presented right after a RESET, from `State.reset` among others (70_reset_and_hazards.md R420). -/
def bootDutyAfterReset (prog : List Instr) : Bool := bootDutyFrom memAddresses prog

/-! ### Relations of the statements -/

/-- One PID evaluation (44_motor_control.md R271), with `wrap32` (00_scope.md R13) and `qmul` (42_numeric_utils.md R236)
written out: from the gains, the limit, the stored integral and previous error and the error, the result u and the stored
values. -/
def PidEvaluates (c : Config) (g : Gains) (sat : Int) (int0 eprev0 : W32) (eIn : Int) (u : Int) (int1 eprev1 : W32) : Prop :=
  let wrapped (x : Int) : Int := (BitVec.ofInt 32 x).toInt
  let product (k v : Int) : Int := wrapped (k * v / 65536)
  let e := wrapped eIn
  let int := max (-sat) (min (int0.toInt + e) sat)
  let pOut :=
    if max e (-e) ≤ c.pThresh then product g.kp.toInt e
    else wrapped (g.kp.toInt * (e / 2 ^ c.pPreshift) / 2 ^ c.pPostshift)
  u = wrapped (pOut + product g.ki.toInt int + product g.kd.toInt (e - eprev0.toInt))
    ∧ int1 = BitVec.ofInt 32 int ∧ eprev1 = BitVec.ofInt 32 e

/-- The output stage of motor m for the command u (44_motor_control.md R293, R294): clamp, derate but in PWM mode, split into
direction, magnitude and sign, one event. -/
def OutputWritten (m : Fin 2) (u : Int) (isPwm : Bool) (s t : State) : Prop :=
  let v := max (-s.cfg.pwmMax) (min u s.cfg.pwmMax)
  let w := if isPwm then v else Int.tdiv (v * s.drive.pwmLimit.toNat) 100
  let mag : W16 := BitVec.ofInt 16 (if w < 0 then -w else w)
  t.drive =
      { s.drive with
        dir := s.drive.dir.set m (decide (w < 0))
        mag := s.drive.mag.set m mag
        sign := s.drive.sign.set m (if w < 0 then Sign.neg else Sign.pos) }
    ∧ t.trace = s.trace ++ [.pwm m (decide (w < 0)) mag]

/-! ### Runs the statements speak of -/

/-- The same instruction n times, stopping at the first stop. -/
def execTimes (i : Instr) : Nat → State → Result
  | 0, s => .next s
  | n + 1, s =>
    match exec i s with
    | .next t => execTimes i n t
    | .fault r => .fault r
    | .refused r => .refused r

/-- The sequencer positions before, between and after n STEPs (40_scheduler.md R184). -/
def visited : Nat → State → List SeqPos
  | 0, s => [s.seq]
  | n + 1, s =>
    s.seq :: (match exec .step s with
      | .next t => visited n t
      | .fault _ => []
      | .refused _ => [])

/-- The addresses a host write reaches: the Mem fields, the pending references and the three commands (10_state.md R56,
47_host_interface.md R361 to R364). -/
def writableAddresses : List Nat := memAddresses ++ [0x30, 0x31, 0x32, 0x70, 0x71, 0x79]

/-- The addresses of the registers of 10_state.md R56 below RX_BUF; RX_BUF_j stands at 0x80 + j, j = 0..31. -/
def mappedAddresses : List Nat :=
  memAddresses ++
  [0x30, 0x31, 0x32, 0x34, 0x35, 0x36, 0x38, 0x39, 0x3A,
   0x40, 0x41, 0x42, 0x44, 0x45, 0x46, 0x48, 0x49, 0x4A,
   0x50, 0x51, 0x52, 0x54, 0x55, 0x56, 0x58, 0x59, 0x5A,
   0x60, 0x61, 0x62, 0x63, 0x64, 0x65, 0x70, 0x71, 0x78, 0x79]

/-- What a read-write register of a configuration field or of a pending reference keeps of a written value, as a read gives
it back (10_state.md R56). -/
def keptBy (a : Byte) (v : W32) : W32 :=
  match a.toNat with
  | 0x00 => v &&& 0xFF
  | 0x01 => v &&& 0xFF
  | 0x02 => v &&& 0xFF
  | 0x03 => v &&& 0x1
  | 0x08 => v &&& 0xFFFF
  | 0x20 => (v.setWidth 16).signExtend 32
  | 0x21 => (v.setWidth 16).signExtend 32
  | 0x22 => (v.setWidth 16).signExtend 32
  | 0x32 => v &&& 0x3
  | _ => v

/-- The parameters break a constraint of 00_scope.md R11 (93_implementation_defined.md U13), one disjunct each, with the length
of DERATE_TABLE that R19 gives. -/
def BreaksR11 (c : Config) : Prop :=
  16 < c.encBits ∨ 32 < c.encShift + c.encBits
    ∨ c.vHi ≤ c.vLo ∨ c.vStep ≤ 0
    ∨ (∃ b ∈ c.derateTable, 100 < b.toNat)
    ∨ (∃ (i : Nat) (a b : Byte), c.derateTable[i]? = some a ∧ c.derateTable[i + 1]? = some b ∧ a.toNat < b.toNat)
    ∨ (c.derateTable.length : Int) ≠ (c.vHi - c.vLo + c.vStep - 1) / c.vStep
    ∨ 30 < c.filtShift ∨ c.filtAlpha < 0 ∨ 2 ^ c.filtShift < c.filtAlpha
    ∨ (c.querySeq.a1 = c.startMark ∧ c.querySeq.a2 = c.startMark)
    ∨ 2 ^ 15 ≤ c.pwmMax ∨ c.pPreshift + c.pPostshift ≠ 16

/-- The parameters leave the ranges the model asks for beside R11 (notes/assumptions/9.md, the model's reading): the type column
of 00_scope.md R10, a frame limit that `drain_frames` can hold (10_state.md R35) and a divider that counts (R37). -/
def BreaksRanges (c : Config) : Prop :=
  31 < c.encShift ∨ c.encBits = 0
    ∨ c.pThresh < 0 ∨ c.posIntSat ≤ 0 ∨ c.currIntSat ≤ 0 ∨ c.pwmMax ≤ 0
    ∨ 31 < c.vSh ∨ 31 < c.iSh
    ∨ (∃ x ∈ [c.pThresh, c.posIntSat, c.currIntSat, c.vOfs, c.vGain, c.iOfs, c.iGain, c.vLo, c.vHi, c.vStep,
          c.calKp, c.calKd, c.calStep, c.calCurrThresh], x < -(2 ^ 31) ∨ 2 ^ 31 ≤ x)
    ∨ c.pause1Ticks = 0 ∨ c.pause2Ticks = 0 ∨ 7 < c.framesPerDrain ∨ c.calDiv = 0

/-- The fields of 30_encoding.md R134 are as a well-formed transaction word has them. -/
def TxnWellFormed (w : TxnWord) : Prop :=
  let op := w.toNat / 2 ^ 56
  let ai := w.toNat / 2 ^ 48 % 2 ^ 8
  let rsv := w.toNat / 2 ^ 32 % 2 ^ 16
  let data := w.toNat % 2 ^ 32
  rsv = 0 ∧
    ((op ∈ [0x01, 0x02, 0x06, 0x09, 0x0A] ∧ ai = 0 ∧ data = 0)
      ∨ (op = 0x03 ∧ ai = 0 ∧ data < 2 ^ 8)
      ∨ (op = 0x04 ∧ ai ≤ 2)
      ∨ (op = 0x05 ∧ ai ≤ 2 ∧ data < 2 ^ 16)
      ∨ op = 0x07
      ∨ (op = 0x08 ∧ data = 0))

end Sys2Proof.Machine
end

