-- ==== Sys2Proof/Certificates/Slice0/Obligations.lean ====
section
/-! DEFINITION. The statements for the provers: what each transaction, micro-operation and code row does, the encodings, the
invariant every step keeps, the rules over all instructions, the laws of the numeric utilities, and bounded runs. Each
docstring names the rules a statement formalises. -/

open Sys2Proof Sys2Proof.Machine

/-! ### Transactions -/

/-- 70_reset_and_hazards.md R410: RESET in any position sets every piece of state to the value of the table, Mem to
MEM_AT_RESET, and keeps the trace; the words still to come and the parameters are kept (the model's fields, log 1 and 2). -/
def Obligations.ResetSetsEveryPieceOfState : Prop :=
  ∀ s : State, ∃ t : State, exec .reset s = .next t
    ∧ t.seq = ⟨.idle, 0⟩ ∧ t.drainRet = ⟨.idle, 0⟩ ∧ t.drainFrames = 0
    ∧ t.tickPending = false ∧ t.calDiv = 0 ∧ t.cbKind = .none
    ∧ (∀ r ∈ [t.refC, t.refP, t.refPrev], r.pos = ⟨0, 0⟩ ∧ r.onoff = 0)
    ∧ (∀ q ∈ [t.meas, t.measPrev], q.pos = ⟨0, 0, 0⟩ ∧ q.turns = ⟨0, 0, 0⟩ ∧ q.curr = ⟨0, 0⟩ ∧ q.volt = 0)
    ∧ t.mem = s.cfg.memAtReset
    ∧ t.framer.fstate = .waitStart ∧ t.framer.win = ⟨0, 0, 0⟩ ∧ t.framer.forMe = false
    ∧ t.framer.flen = 0 ∧ t.framer.fidx = 0 ∧ (∀ a, memRead t.framer.fbuf a = 0) ∧ t.framer.unloadCnt = 0
    ∧ (∀ a, memRead t.rxc.buf a = 0) ∧ t.rxc.len = 0 ∧ t.rxc.ready = false
    ∧ t.rxFlag = false ∧ t.rxEnabled = true
    ∧ t.pid = { posInt := ⟨0, 0⟩, posEprev := ⟨0, 0⟩, currInt := ⟨0, 0⟩, currEprev := ⟨0, 0⟩ }
    ∧ t.enc.last = ⟨0, 0, 0⟩ ∧ t.enc.noise = ⟨0, 0, 0⟩ ∧ t.enc.resetLast = true
    ∧ t.filt = ⟨0, 0⟩
    ∧ t.drive = { pwmLimit := 0, sign := ⟨.pos, .pos⟩, dir := ⟨false, false⟩, mag := ⟨0, 0⟩ }
    ∧ t.cal = { phase := .stop, pause := 0, saved := { kp := 0, ki := 0, kd := 0 }, savedOnoff := 0 }
    ∧ t.ports.encWord = ⟨0, 0, 0⟩ ∧ t.ports.adcRaw = ⟨0, 0, 0⟩ ∧ t.ports.adcReady = false ∧ t.ports.rxFifo = []
    ∧ t.driveEn = 0 ∧ t.ports.flowctl = true
    ∧ t.trace = s.trace ∧ t.txns = s.txns ∧ t.cfg = s.cfg

/-- 40_scheduler.md R170: TIMER sets the request bit in every position, and nothing else; a second TIMER is absorbed. -/
def Obligations.TimerRequestsATick : Prop :=
  ∀ s : State, exec .timer s = .next { s with tickPending := true }
    ∧ exec .timer { s with tickPending := true } = .next { s with tickPending := true }

/-- 47_host_interface.md R368: RXB appends the byte unless the FIFO is full, and sets the flag in both cases. -/
def Obligations.RxbAppendsOrLosesTheByte : Prop :=
  ∀ (b : Byte) (s : State),
    exec (.rxb b) s = .next
      (if s.ports.rxFifo.length < s.cfg.rxFifoDepth then
        { s with rxFlag := true, ports := { s.ports with rxFifo := s.ports.rxFifo ++ [b] } }
      else { s with rxFlag := true })

/-- 47_host_interface.md R369, R370: ENC and ADC latch their word at their index, ADCDONE sets the ready bit; nothing else
changes. -/
def Obligations.EncoderAndAnalogInputsAreLatched : Prop :=
  ∀ (k : Fin 3) (w : W32) (v : W16) (s : State),
    exec (.enc (BitVec.ofNat 8 k.val) w) s = .next { s with ports := { s.ports with encWord := s.ports.encWord.set k w } }
    ∧ exec (.adc (BitVec.ofNat 8 k.val) v) s = .next { s with ports := { s.ports with adcRaw := s.ports.adcRaw.set k v } }
    ∧ exec .adcdone s = .next { s with ports := { s.ports with adcReady := true } }

/-- 47_host_interface.md R361 to R364: WR outside IDLE and CALLBACK has no effect; there it writes its field (the low bits of
the value), RX_READY is cleared by a 0, CMD_CAL_START starts a session from STOP only, CMD_RESET_LAST sets the flag, and
every other address ignores the write. Nothing else changes. -/
def Obligations.WrWritesItsRegister : Prop :=
  ∀ (v : W32) (s : State),
    (s.seq.code ≠ .idle → s.seq.code ≠ .callback → ∀ a, exec (.wr a v) s = .next s)
    ∧ (s.seq.code = .idle ∨ s.seq.code = .callback →
      let m := s.mem
      let mem (x : DevMem) : Result := .next { s with mem := x }
      exec (.wr 0x00 v) s = mem { m with ctrlMode := v.setWidth 8 }
      ∧ exec (.wr 0x01 v) s = mem { m with inputMode := v.setWidth 8 }
      ∧ exec (.wr 0x02 v) s = mem { m with nodeAddr := v.setWidth 8 }
      ∧ exec (.wr 0x03 v) s = mem { m with posLimEn := v.getLsbD 0 }
      ∧ exec (.wr 0x04 v) s = mem { m with posLimInf := ⟨v, m.posLimInf.a1⟩ }
      ∧ exec (.wr 0x05 v) s = mem { m with posLimInf := ⟨m.posLimInf.a0, v⟩ }
      ∧ exec (.wr 0x06 v) s = mem { m with posLimSup := ⟨v, m.posLimSup.a1⟩ }
      ∧ exec (.wr 0x07 v) s = mem { m with posLimSup := ⟨m.posLimSup.a0, v⟩ }
      ∧ exec (.wr 0x08 v) s = mem { m with currLimit := v.setWidth 16 }
      ∧ exec (.wr 0x09 v) s = mem { m with maxStiff := v }
      ∧ exec (.wr 0x10 v) s = mem { m with gPos := { m.gPos with kp := v } }
      ∧ exec (.wr 0x11 v) s = mem { m with gPos := { m.gPos with ki := v } }
      ∧ exec (.wr 0x12 v) s = mem { m with gPos := { m.gPos with kd := v } }
      ∧ exec (.wr 0x13 v) s = mem { m with gDefl := { m.gDefl with kp := v } }
      ∧ exec (.wr 0x14 v) s = mem { m with gDefl := { m.gDefl with ki := v } }
      ∧ exec (.wr 0x15 v) s = mem { m with gDefl := { m.gDefl with kd := v } }
      ∧ exec (.wr 0x16 v) s = mem { m with gCurr := { m.gCurr with kp := v } }
      ∧ exec (.wr 0x17 v) s = mem { m with gCurr := { m.gCurr with ki := v } }
      ∧ exec (.wr 0x18 v) s = mem { m with gCurr := { m.gCurr with kd := v } }
      ∧ exec (.wr 0x19 v) s = mem { m with gDcurr := { m.gDcurr with kp := v } }
      ∧ exec (.wr 0x1A v) s = mem { m with gDcurr := { m.gDcurr with ki := v } }
      ∧ exec (.wr 0x1B v) s = mem { m with gDcurr := { m.gDcurr with kd := v } }
      ∧ exec (.wr 0x20 v) s = mem { m with encOff := ⟨v.setWidth 16, m.encOff.a1, m.encOff.a2⟩ }
      ∧ exec (.wr 0x21 v) s = mem { m with encOff := ⟨m.encOff.a0, v.setWidth 16, m.encOff.a2⟩ }
      ∧ exec (.wr 0x22 v) s = mem { m with encOff := ⟨m.encOff.a0, m.encOff.a1, v.setWidth 16⟩ }
      ∧ exec (.wr 0x24 v) s = mem { m with encMult := ⟨v, m.encMult.a1, m.encMult.a2⟩ }
      ∧ exec (.wr 0x25 v) s = mem { m with encMult := ⟨m.encMult.a0, v, m.encMult.a2⟩ }
      ∧ exec (.wr 0x26 v) s = mem { m with encMult := ⟨m.encMult.a0, m.encMult.a1, v⟩ }
      ∧ exec (.wr 0x30 v) s = .next { s with refP := { s.refP with pos := ⟨v, s.refP.pos.a1⟩ } }
      ∧ exec (.wr 0x31 v) s = .next { s with refP := { s.refP with pos := ⟨s.refP.pos.a0, v⟩ } }
      ∧ exec (.wr 0x32 v) s = .next { s with refP := { s.refP with onoff := v.setWidth 2 } }
      ∧ exec (.wr 0x79 v) s = .next (if v.getLsbD 0 = false then { s with rxc := { s.rxc with ready := false } } else s)
      ∧ exec (.wr 0x70 v) s = .next
          (if v.getLsbD 0 = true ∧ s.cal.phase = .stop then { s with cal := { s.cal with phase := .start, pause := 0 } } else s)
      ∧ exec (.wr 0x71 v) s = .next (if v.getLsbD 0 = true then { s with enc := { s.enc with resetLast := true } } else s)
      ∧ (∀ a : Byte, a.toNat ∉ writableAddresses → exec (.wr a v) s = .next s))

/-- 47_host_interface.md R365: RD emits the register's value in IDLE and CALLBACK, has no effect elsewhere, and changes no
state; the register's value is `RegisterMapReads`. -/
def Obligations.RdEmitsTheRegister : Prop :=
  ∀ (a : Byte) (s : State),
    exec (.rd a) s = .next
      (if s.seq.code = .idle ∨ s.seq.code = .callback then { s with trace := s.trace ++ [.regRdData a (regRead a s)] } else s)

/-- 10_state.md R56, R57: what each register reads as, signed fields sign-extended, write-only and reserved addresses 0;
the framer state and the calibration phase by their numbers (30_encoding.md R145, R155). -/
def Obligations.RegisterMapReads : Prop :=
  ∀ s : State,
    let phase : BitVec 3 := match s.cal.phase with
      | .stop => 0 | .start => 1 | .pause1 => 2 | .continue1 => 3 | .pause2 => 4 | .continue2 => 5
    let fstate : BitVec 3 := match s.framer.fstate with
      | .waitStart => 0 | .waitId => 1 | .waitLength => 2 | .receive => 3 | .unload => 4
    regRead 0x00 s = s.mem.ctrlMode.setWidth 32 ∧ regRead 0x01 s = s.mem.inputMode.setWidth 32
    ∧ regRead 0x02 s = s.mem.nodeAddr.setWidth 32 ∧ regRead 0x03 s = (if s.mem.posLimEn then 1 else 0)
    ∧ regRead 0x04 s = s.mem.posLimInf.a0 ∧ regRead 0x05 s = s.mem.posLimInf.a1
    ∧ regRead 0x06 s = s.mem.posLimSup.a0 ∧ regRead 0x07 s = s.mem.posLimSup.a1
    ∧ regRead 0x08 s = s.mem.currLimit.setWidth 32 ∧ regRead 0x09 s = s.mem.maxStiff
    ∧ regRead 0x10 s = s.mem.gPos.kp ∧ regRead 0x11 s = s.mem.gPos.ki ∧ regRead 0x12 s = s.mem.gPos.kd
    ∧ regRead 0x13 s = s.mem.gDefl.kp ∧ regRead 0x14 s = s.mem.gDefl.ki ∧ regRead 0x15 s = s.mem.gDefl.kd
    ∧ regRead 0x16 s = s.mem.gCurr.kp ∧ regRead 0x17 s = s.mem.gCurr.ki ∧ regRead 0x18 s = s.mem.gCurr.kd
    ∧ regRead 0x19 s = s.mem.gDcurr.kp ∧ regRead 0x1A s = s.mem.gDcurr.ki ∧ regRead 0x1B s = s.mem.gDcurr.kd
    ∧ regRead 0x20 s = s.mem.encOff.a0.signExtend 32 ∧ regRead 0x21 s = s.mem.encOff.a1.signExtend 32
    ∧ regRead 0x22 s = s.mem.encOff.a2.signExtend 32
    ∧ regRead 0x24 s = s.mem.encMult.a0 ∧ regRead 0x25 s = s.mem.encMult.a1 ∧ regRead 0x26 s = s.mem.encMult.a2
    ∧ regRead 0x30 s = s.refP.pos.a0 ∧ regRead 0x31 s = s.refP.pos.a1 ∧ regRead 0x32 s = s.refP.onoff.setWidth 32
    ∧ regRead 0x34 s = s.refC.pos.a0 ∧ regRead 0x35 s = s.refC.pos.a1 ∧ regRead 0x36 s = s.refC.onoff.setWidth 32
    ∧ regRead 0x38 s = s.refPrev.pos.a0 ∧ regRead 0x39 s = s.refPrev.pos.a1
    ∧ regRead 0x3A s = s.refPrev.onoff.setWidth 32
    ∧ regRead 0x40 s = s.meas.pos.a0 ∧ regRead 0x41 s = s.meas.pos.a1 ∧ regRead 0x42 s = s.meas.pos.a2
    ∧ regRead 0x44 s = s.meas.curr.a0 ∧ regRead 0x45 s = s.meas.curr.a1 ∧ regRead 0x46 s = s.meas.volt
    ∧ regRead 0x48 s = s.meas.turns.a0.signExtend 32 ∧ regRead 0x49 s = s.meas.turns.a1.signExtend 32
    ∧ regRead 0x4A s = s.meas.turns.a2.signExtend 32
    ∧ regRead 0x50 s = s.measPrev.pos.a0 ∧ regRead 0x51 s = s.measPrev.pos.a1 ∧ regRead 0x52 s = s.measPrev.pos.a2
    ∧ regRead 0x54 s = s.measPrev.curr.a0 ∧ regRead 0x55 s = s.measPrev.curr.a1 ∧ regRead 0x56 s = s.measPrev.volt
    ∧ regRead 0x58 s = s.measPrev.turns.a0.signExtend 32 ∧ regRead 0x59 s = s.measPrev.turns.a1.signExtend 32
    ∧ regRead 0x5A s = s.measPrev.turns.a2.signExtend 32
    ∧ regRead 0x60 s = s.drive.pwmLimit.setWidth 32
    ∧ regRead 0x61 s = (0 : BitVec 15) ++ BitVec.ofBool s.drive.dir.a0 ++ s.drive.mag.a0
    ∧ regRead 0x62 s = (0 : BitVec 15) ++ BitVec.ofBool s.drive.dir.a1 ++ s.drive.mag.a1
    ∧ regRead 0x63 s = s.cal.pause ++ (0 : BitVec 13) ++ phase
    ∧ regRead 0x64 s = (0 : Byte) ++ s.framer.fidx ++ s.framer.flen ++ (0 : BitVec 4) ++ BitVec.ofBool s.framer.forMe
        ++ fstate
    ∧ regRead 0x65 s = (0 : BitVec 27) ++ BitVec.ofBool s.rxc.ready ++ BitVec.ofBool s.tickPending
        ++ BitVec.ofBool s.enc.resetLast ++ BitVec.ofBool s.rxEnabled ++ BitVec.ofBool s.rxFlag
    ∧ regRead 0x78 s = s.rxc.len.setWidth 32 ∧ regRead 0x79 s = (if s.rxc.ready then 1 else 0)
    ∧ (∀ j : Fin 32, regRead (BitVec.ofNat 8 (0x80 + j.val)) s =
        memRead s.rxc.buf (4 * j.val + 3) ++ memRead s.rxc.buf (4 * j.val + 2) ++ memRead s.rxc.buf (4 * j.val + 1)
          ++ memRead s.rxc.buf (4 * j.val))
    ∧ regRead 0x70 s = 0 ∧ regRead 0x71 s = 0
    ∧ (∀ a : Byte, a.toNat ∉ mappedAddresses → a.toNat / 32 ≠ 4 → regRead a s = 0)

/-- 10_state.md R56, 20_memory.md R109: a host write to a configuration field or a pending reference is read back truncated to
its field, and every other register reads as before. -/
def Obligations.WriteThenReadBack : Prop :=
  ∀ (a : Byte) (v : W32) (s : State),
    a.toNat ∈ memAddresses ++ [0x30, 0x31, 0x32] → s.seq.code = .idle ∨ s.seq.code = .callback →
    ∃ t, exec (.wr a v) s = .next t ∧ regRead a t = keptBy a v ∧ ∀ b, b ≠ a → regRead b t = regRead b s

/-- 47_host_interface.md R366, R367: CALLBACK is a hold, and HDONE ends it; HDONE elsewhere has no effect. -/
def Obligations.CallbackHoldsUntilHdone : Prop :=
  ∀ s : State,
    exec .seqCallback s = .next s
    ∧ (s.seq.code = .callback →
        exec .step s = .next s
        ∧ exec .hdone s = .next { s with cbKind := .none, seq := { s.seq with code := .drain } })
    ∧ (s.seq.code ≠ .callback → exec .hdone s = .next s)

/-- 47_host_interface.md R372, 60_exceptions.md R395: STEP is the micro-operation of the current position; it completes in every
position, in MOTOR for a motor index below 2 and in DRAIN for a receive index inside the buffer if a payload byte is taken
(notes/assumptions/7.md, 8.md), and at each of the three holds it changes nothing. -/
def Obligations.StepPerformsTheMicroOperation : Prop :=
  ∀ s : State,
    exec .step s = exec s.seq.code.instr s
    ∧ ((s.seq.code = .motor → s.seq.idx ≠ 2) →
        (s.seq.code = .drain → s.framer.fstate = .receive → s.ports.rxFifo ≠ [] → s.framer.fidx.toNat < 128) →
        ∃ t, exec .step s = .next t)
    ∧ ((s.seq.code = .idle ∧ s.tickPending = false)
        ∨ (s.seq.code = .adcWait ∧ s.ports.adcReady = false ∧ ¬(s.rxEnabled = true ∧ s.rxFlag = true))
        ∨ s.seq.code = .callback →
        exec .step s = .next s)

/-! ### The scheduler -/

/-- 40_scheduler.md R171, R172: IDLE starts a requested tick and else holds; ADC_START clears the ready bit, starts a
conversion and moves to DRAIN_B. -/
def Obligations.TickEntryAndConversionStart : Prop :=
  ∀ s : State,
    exec .seqIdle s = .next
      (if s.tickPending = true then { s with tickPending := false, seq := { s.seq with code := .adcStart } } else s)
    ∧ exec .seqAdcStart s = .next
        { s with ports := { s.ports with adcReady := false }, trace := s.trace ++ [.adcStart],
                 seq := { s.seq with code := .drainB } }

/-- 40_scheduler.md R173, R175, R178; 41_framer.md R214, R215: DRAIN_B enters a drain unless reception is suspended; the two
polls enter one only with the flag set; else the sequencer goes straight to the continuation. -/
def Obligations.DrainEntriesAndPolls : Prop :=
  ∀ s : State,
    let drained (p : SeqPos) : State :=
      { s with rxFlag := false, drainFrames := 0, drainRet := p, seq := { s.seq with code := .drain } }
    let afterC : SeqPos := if s.seq.idx = 0 then ⟨.enc, 1⟩ else if s.seq.idx = 1 then ⟨.enc, 2⟩ else ⟨.inputOvr, 0⟩
    let afterD : SeqPos := if s.seq.idx = 0 then ⟨.motor, 1⟩ else ⟨.adcWait, 0⟩
    exec .seqDrainB s = .next (if s.rxEnabled = true then drained ⟨.enc, 0⟩ else { s with seq := ⟨.enc, 0⟩ })
    ∧ exec .seqPollC s = .next
        (if s.rxEnabled = true ∧ s.rxFlag = true then drained afterC else { s with seq := afterC })
    ∧ exec .seqPollD s = .next
        (if s.rxEnabled = true ∧ s.rxFlag = true then drained afterD else { s with seq := afterD })

/-- 40_scheduler.md R174, 43_encoder.md R250 to R255: the ENC step of sensor `seq_idx`, whole. The noise counter is below its
limit in every state of `Legal`. -/
def Obligations.EncUnwrapsTheSample : Prop :=
  ∀ s : State, (s.enc.noise.get s.seq.idx).toNat < noiseLimit →
    let k := s.seq.idx
    let last : Three W16 := if s.enc.resetLast = true then ⟨0, 0, 0⟩ else s.enc.last
    let w := s.ports.encWord.get k
    let a16 : Nat := ((w.toNat >>> s.cfg.encShift) &&& (2 ^ s.cfg.encBits - 1)) <<< (16 - s.cfg.encBits)
    let raw : W16 := BitVec.ofInt 16 (a16 + (s.mem.encOff.get k).toInt)
    let delta : Int := raw.toInt - (last.get k).toInt
    let turns := s.meas.turns.get k
    let next : SeqPos := { s.seq with code := .pollC }
    let accepted (t : W16) : State :=
      { s with
        seq := next
        enc := { last := last.set k raw, noise := s.enc.noise.set k 0, resetLast := false }
        meas :=
          { s.meas with
            turns := s.meas.turns.set k t
            pos := s.meas.pos.set k
              (BitVec.ofInt 32 ((s.mem.encMult.get k).toInt * (t.toInt * 65536 + raw.toInt) / 65536)) } }
    exec .seqEnc s = .next
      (if encValid s.cfg.encAccept w = false then { s with seq := next, enc := { s.enc with last := last, resetLast := false } }
       else if 49152 < delta then accepted (BitVec.ofInt 16 (turns.toInt - 1))
       else if delta < -49152 then accepted (BitVec.ofInt 16 (turns.toInt + 1))
       else if 16384 < max delta (-delta) ∧ (s.enc.noise.get k).toNat + 1 < 10 then
        { s with
          seq := next
          enc := { last := last, noise := s.enc.noise.set k (s.enc.noise.get k + 1), resetLast := false } }
       else accepted turns)

/-- 43_encoder.md R254, R257 (3): of ten ENC steps on one valid sample in the noise band, nine are discarded and the tenth is
accepted with the turn counter unchanged. -/
def Obligations.TenthNoiseSampleIsAccepted : Prop :=
  ∀ s : State,
    let k := s.seq.idx
    let w := s.ports.encWord.get k
    let raw := rawAngle s.cfg.encShift s.cfg.encBits (s.mem.encOff.get k) w
    let delta : Int := raw.toInt - (s.enc.last.get k).toInt
    s.enc.resetLast = false → s.enc.noise.get k = 0 → encValid s.cfg.encAccept w = true →
    16384 < max delta (-delta) → max delta (-delta) ≤ 49152 →
    (∀ j, j ≤ 9 → ∃ t, execTimes .seqEnc j s = .next t
      ∧ t.meas = s.meas ∧ t.enc.last = s.enc.last ∧ (t.enc.noise.get k).toNat = j)
    ∧ ∃ t, execTimes .seqEnc 10 s = .next t
      ∧ t.enc.last.get k = raw ∧ t.enc.noise.get k = 0 ∧ t.meas.turns = s.meas.turns
      ∧ t.meas.pos.get k =
          BitVec.ofInt 32 ((s.mem.encMult.get k).toInt * ((s.meas.turns.get k).toInt * 65536 + raw.toInt) / 65536)

/-- 43_encoder.md R256: the ENC step of a sensor writes only that sensor's registers, its turns and its position (and the
last-known values, once, after a reset request), and it reads no other sensor's state. -/
def Obligations.EncoderStepsAreIsolated : Prop :=
  (∀ s t : State, exec .seqEnc s = .next t →
    t = { s with
          seq := { s.seq with code := .pollC }
          enc := t.enc
          meas := { s.meas with
                    pos := s.meas.pos.set s.seq.idx (t.meas.pos.get s.seq.idx)
                    turns := s.meas.turns.set s.seq.idx (t.meas.turns.get s.seq.idx) } }
    ∧ t.enc.resetLast = false
    ∧ ∀ j, j ≠ s.seq.idx →
        t.enc.noise.get j = s.enc.noise.get j ∧ t.enc.last.get j = (if s.enc.resetLast = true then 0 else s.enc.last.get j))
  ∧ (∀ s t s' t' : State, exec .seqEnc s = .next t → exec .seqEnc s' = .next t' →
      s'.seq.idx = s.seq.idx → s'.cfg = s.cfg → s'.enc.resetLast = s.enc.resetLast →
      (let k := s.seq.idx
       s'.ports.encWord.get k = s.ports.encWord.get k ∧ s'.mem.encOff.get k = s.mem.encOff.get k
        ∧ s'.mem.encMult.get k = s.mem.encMult.get k ∧ s'.enc.last.get k = s.enc.last.get k
        ∧ s'.enc.noise.get k = s.enc.noise.get k ∧ s'.meas.turns.get k = s.meas.turns.get k
        ∧ s'.meas.pos.get k = s.meas.pos.get k) →
      let k := s.seq.idx
      t'.enc.last.get k = t.enc.last.get k ∧ t'.enc.noise.get k = t.enc.noise.get k
        ∧ t'.meas.turns.get k = t.meas.turns.get k ∧ t'.meas.pos.get k = t.meas.pos.get k)

/-- 40_scheduler.md R176, 44_motor_control.md R290, R291: ENCODER3 overrides both committed references with the shaft
position, clamped to the limits if they are enabled; every other input mode only moves on to MOTOR 0. -/
def Obligations.InputOverrideOnlyForEncoder3 : Prop :=
  ∀ s : State,
    let r := s.meas.pos.a2
    let override (inf sup : W32) : W32 :=
      if s.mem.posLimEn = true then BitVec.ofInt 32 (max inf.toInt (min r.toInt sup.toInt)) else r
    exec .seqInputOvr s = .next
      (if s.mem.inputMode = 1 then
        { s with
          seq := ⟨.motor, 0⟩
          refC := { s.refC with
                    pos := ⟨override s.mem.posLimInf.a0 s.mem.posLimSup.a0, override s.mem.posLimInf.a1 s.mem.posLimSup.a1⟩ } }
      else { s with seq := ⟨.motor, 0⟩ })

/-- 40_scheduler.md R177, 44_motor_control.md R280, R281 (with R271, R293, R294): MOTOR in POSITION and DEFLECTION mode runs
one position-type PID evaluation and the derated output stage, and changes nothing else. -/
def Obligations.MotorRunsThePositionLoop : Prop :=
  ∀ (s : State) (m : Fin 2), s.seq.idx = m.castSucc → s.mem.ctrlMode = 0 ∨ s.mem.ctrlMode = 4 →
    ∃ (u : Int) (int eprev : W32) (t : State),
      exec .seqMotor s = .next t
      ∧ PidEvaluates s.cfg (if s.mem.ctrlMode = 0 then s.mem.gPos else s.mem.gDefl) s.cfg.posIntSat
          (s.pid.posInt.get m) (s.pid.posEprev.get m)
          ((s.refC.pos.get m).toInt + (if s.mem.ctrlMode = 0 then 0 else s.meas.pos.a2.toInt)
            - (s.meas.pos.get m.castSucc).toInt)
          u int eprev
      ∧ OutputWritten m u false s t
      ∧ t = { s with
              seq := { s.seq with code := .pollD }
              pid := { s.pid with posInt := s.pid.posInt.set m int, posEprev := s.pid.posEprev.set m eprev }
              drive := t.drive
              trace := t.trace }

/-- 40_scheduler.md R177, 44_motor_control.md R284 (with R271, R293, R294): MOTOR in CURRENT mode. -/
def Obligations.MotorRunsTheCurrentLoop : Prop :=
  ∀ (s : State) (m : Fin 2), s.seq.idx = m.castSucc → s.mem.ctrlMode = 2 →
    ∃ (u : Int) (int eprev : W32) (t : State),
      exec .seqMotor s = .next t
      ∧ PidEvaluates s.cfg s.mem.gCurr s.cfg.currIntSat (s.pid.currInt.get m) (s.pid.currEprev.get m)
          ((s.refC.pos.get m).toInt - (s.meas.curr.get m).toInt) u int eprev
      ∧ OutputWritten m u false s t
      ∧ t = { s with
              seq := { s.seq with code := .pollD }
              pid := { s.pid with currInt := s.pid.currInt.set m int, currEprev := s.pid.currEprev.set m eprev }
              drive := t.drive
              trace := t.trace }

/-- 40_scheduler.md R177, 44_motor_control.md R282, R283 (with R271, R293, R294): MOTOR in POS_CURR and DEFL_CURR mode: the
outer loop's result, clamped to the current limit, is the reference of the inner loop. -/
def Obligations.MotorRunsTheCascades : Prop :=
  ∀ (s : State) (m : Fin 2), s.seq.idx = m.castSucc → s.mem.ctrlMode = 3 ∨ s.mem.ctrlMode = 5 →
    ∃ (i u : Int) (int eprev cint ceprev : W32) (t : State),
      exec .seqMotor s = .next t
      ∧ PidEvaluates s.cfg (if s.mem.ctrlMode = 3 then s.mem.gPos else s.mem.gDefl) s.cfg.posIntSat
          (s.pid.posInt.get m) (s.pid.posEprev.get m)
          ((s.refC.pos.get m).toInt + (if s.mem.ctrlMode = 3 then 0 else s.meas.pos.a2.toInt)
            - (s.meas.pos.get m.castSucc).toInt)
          i int eprev
      ∧ PidEvaluates s.cfg (if s.mem.ctrlMode = 3 then s.mem.gCurr else s.mem.gDcurr) s.cfg.currIntSat
          (s.pid.currInt.get m) (s.pid.currEprev.get m)
          (max (-(s.mem.currLimit.toNat : Int)) (min i s.mem.currLimit.toNat) - (s.meas.curr.get m).toInt)
          u cint ceprev
      ∧ OutputWritten m u false s t
      ∧ t = { s with
              seq := { s.seq with code := .pollD }
              pid := { posInt := s.pid.posInt.set m int, posEprev := s.pid.posEprev.set m eprev,
                       currInt := s.pid.currInt.set m cint, currEprev := s.pid.currEprev.set m ceprev }
              drive := t.drive
              trace := t.trace }

/-- 40_scheduler.md R177, 44_motor_control.md R285, R286 (with R293, R294): MOTOR in PWM mode passes the reference through,
clamped and not derated; a reserved mode drives magnitude 0, direction 0, sign +1; no accumulator changes. -/
def Obligations.MotorPwmAndReservedModes : Prop :=
  ∀ (s : State) (m : Fin 2), s.seq.idx = m.castSucc →
    (s.mem.ctrlMode = 1 → ∃ t, exec .seqMotor s = .next t
      ∧ OutputWritten m (s.refC.pos.get m).toInt true s t
      ∧ t = { s with seq := { s.seq with code := .pollD }, drive := t.drive, trace := t.trace })
    ∧ (6 ≤ s.mem.ctrlMode.toNat → 0 < s.cfg.pwmMax →
      exec .seqMotor s = .next
        { s with
          seq := { s.seq with code := .pollD }
          drive := { s.drive with dir := s.drive.dir.set m false, mag := s.drive.mag.set m 0, sign := s.drive.sign.set m .pos }
          trace := s.trace ++ [.pwm m false 0] })

/-- 40_scheduler.md R179: a completed conversion is taken first, then a pending receive flag; else a hold. -/
def Obligations.AdcWaitTakesConversionFirst : Prop :=
  ∀ s : State,
    exec .seqAdcWait s = .next
      (if s.ports.adcReady = true then { s with seq := { s.seq with code := .afe } }
       else if s.rxEnabled = true ∧ s.rxFlag = true then
        { s with rxFlag := false, drainFrames := 0, drainRet := ⟨.adcWait, 0⟩, seq := { s.seq with code := .drain } }
       else s)

/-- 40_scheduler.md R180, 45_analog_derating.md R310 to R313 (with 42_numeric_utils.md R234, R237): the AFE step, whole. -/
def Obligations.AfeConvertsDeratesAndFilters : Prop :=
  ∀ s : State,
    let c := s.cfg
    let wrapped (x : Int) : Int := (BitVec.ofInt 32 x).toInt
    let volt : Int := wrapped (((s.ports.adcRaw.a0.toNat : Int) - c.vOfs) * c.vGain / 2 ^ c.vSh)
    let current (raw : W16) (sign : Sign) : Int :=
      wrapped (wrapped (((raw.toNat : Int) - c.iOfs) * c.iGain / 2 ^ c.iSh) * (if sign = .neg then -1 else 1))
    let filtered (old : W32) (x : Int) : W32 :=
      BitVec.ofInt 32 ((old.toInt * (2 ^ c.filtShift - c.filtAlpha) + x * c.filtAlpha) / 2 ^ c.filtShift)
    let f0 := filtered s.filt.a0 (current s.ports.adcRaw.a1 s.drive.sign.a0)
    let f1 := filtered s.filt.a1 (current s.ports.adcRaw.a2 s.drive.sign.a1)
    exec .seqAfe s = .next
      (if 0 < volt then
        { s with
          seq := { s.seq with code := .cal }
          meas := { s.meas with volt := BitVec.ofInt 32 volt, curr := ⟨f0, f1⟩ }
          filt := ⟨f0, f1⟩
          drive := { s.drive with pwmLimit := derate c volt } }
      else
        { s with
          seq := { s.seq with code := .cal }
          meas := { s.meas with volt := BitVec.ofInt 32 volt, curr := ⟨0, 0⟩ } })

/-- 40_scheduler.md R181, 46_calibration.md R337: the divider counts ticks, and every CAL_DIV-th CAL step runs one invocation;
in STOP the invocation changes nothing. -/
def Obligations.CalRunsAtTheSubRate : Prop :=
  ∀ s : State,
    (s.calDiv + 1 ≠ s.cfg.calDiv →
      exec .seqCal s = .next { s with calDiv := s.calDiv + 1, seq := { s.seq with code := .swap } })
    ∧ (s.calDiv + 1 = s.cfg.calDiv → s.cal.phase = .stop →
      exec .seqCal s = .next { s with calDiv := 0, seq := { s.seq with code := .swap } })

/-- 40_scheduler.md R182, R183: snapshot, copy pending into committed, drive the enables, end the tick. -/
def Obligations.SwapSnapshotsCommitsAndEnds : Prop :=
  ∀ s : State,
    exec .seqSwap s = .next
      { s with
        measPrev := s.meas
        refPrev := s.refC
        refC := s.refP
        trace := s.trace ++ [.driveEn s.refP.onoff] ++ [.timerReset]
        seq := { s.seq with code := .idle } }

/-! ### Calibration, through the CAL step -/

/-- 46_calibration.md R331, R336 (with 40_scheduler.md R181, 47_host_interface.md R375): the Start and the Continue2
invocation. -/
def Obligations.CalibrationStartsAndFinishes : Prop :=
  ∀ s : State, s.calDiv + 1 = s.cfg.calDiv →
    (s.cal.phase = .start →
      exec .seqCal s = .next
        { s with
          calDiv := 0
          seq := { s.seq with code := .swap }
          rxEnabled := false
          refP := { pos := ⟨0, 0⟩, onoff := s.refP.onoff ||| 0b11 }
          cal := { phase := .pause1, pause := 0, saved := s.mem.gPos, savedOnoff := s.refP.onoff } })
    ∧ (s.cal.phase = .continue2 →
      exec .seqCal s = .next
        { s with
          calDiv := 0
          seq := { s.seq with code := .swap }
          refP := { s.refP with onoff := s.cal.savedOnoff }
          trace := s.trace ++ [.store s.cfg.regionDefault s.mem] ++ [.store s.cfg.regionActive s.mem]
          cal := { s.cal with phase := .stop }
          rxEnabled := true })

/-- 46_calibration.md R332, R335 (with 40_scheduler.md R181): the two pauses count their invocations; the last one of Pause1
installs the temporary gains. -/
def Obligations.CalibrationPauses : Prop :=
  ∀ s : State, s.calDiv + 1 = s.cfg.calDiv →
    let t : State := { s with calDiv := 0, seq := { s.seq with code := .swap } }
    (s.cal.phase = .pause1 →
      exec .seqCal s = .next
        (if (s.cal.pause + 1).toNat = s.cfg.pause1Ticks then
          { t with
            mem := { s.mem with gPos := { kp := BitVec.ofInt 32 s.cfg.calKp, ki := 0, kd := BitVec.ofInt 32 s.cfg.calKd } }
            cal := { s.cal with pause := 0, phase := .continue1 } }
        else { t with cal := { s.cal with pause := s.cal.pause + 1 } }))
    ∧ (s.cal.phase = .pause2 →
      exec .seqCal s = .next
        (if (s.cal.pause + 1).toNat = s.cfg.pause2Ticks then { t with cal := { s.cal with pause := 0, phase := .continue2 } }
        else { t with cal := { s.cal with pause := s.cal.pause + 1 } }))

/-- 46_calibration.md R333, R334 (with 40_scheduler.md R181): the sweep steps both pending references, and a current above the
threshold captures the other motor's committed reference, motor 0 tested first. -/
def Obligations.CalibrationSweepsAndCaptures : Prop :=
  ∀ s : State, s.calDiv + 1 = s.cfg.calDiv → s.cal.phase = .continue1 →
    let t : State := { s with calDiv := 0, seq := { s.seq with code := .swap } }
    let captured (x : W32) : State :=
      { t with
        mem := { s.mem with maxStiff := x, gPos := s.cal.saved }
        refP := { s.refP with pos := ⟨0, 0⟩ }
        cal := { s.cal with pause := 0, phase := .pause2 } }
    let above (x : W32) : Prop := s.cfg.calCurrThresh < max x.toInt (-x.toInt)
    (above s.meas.curr.a0 → exec .seqCal s = .next (captured s.refC.pos.a1))
    ∧ (¬ above s.meas.curr.a0 → above s.meas.curr.a1 → exec .seqCal s = .next (captured s.refC.pos.a0))
    ∧ (¬ above s.meas.curr.a0 → ¬ above s.meas.curr.a1 →
      exec .seqCal s = .next
        { t with
          refP := { s.refP with
                    pos := ⟨BitVec.ofInt 32 (s.refP.pos.a0.toInt + s.cfg.calStep),
                            BitVec.ofInt 32 (s.refP.pos.a1.toInt - s.cfg.calStep)⟩ } })

/-! ### The framer, through the DRAIN step -/

/-- 41_framer.md R216, R217: with the FIFO empty or the frame limit reached the drain returns to its continuation, and no byte
is taken. -/
def Obligations.DrainEndsAtItsContinuation : Prop :=
  ∀ s : State, s.ports.rxFifo = [] ∨ s.cfg.framesPerDrain ≤ s.drainFrames.toNat →
    exec .seqDrain s = .next { s with seq := s.drainRet }

/-- 41_framer.md R201, R202 (with R200, R216): one byte in WaitStart: the start marker is tested first, then the query. -/
def Obligations.WaitStartFindsMarkerOrQuery : Prop :=
  ∀ (s : State) (b : Byte) (rest : List Byte),
    s.ports.rxFifo = b :: rest → s.drainFrames.toNat < s.cfg.framesPerDrain → s.framer.fstate = .waitStart →
    let win : Three Byte := ⟨s.framer.win.a1, s.framer.win.a2, b⟩
    let t : State := { s with ports := { s.ports with rxFifo := rest } }
    exec .seqDrain s = .next
      (if win.a1 = s.cfg.startMark ∧ win.a2 = s.cfg.startMark then
        { t with framer := { s.framer with win := ⟨0, 0, 0⟩, fstate := .waitId } }
       else if win = s.cfg.querySeq then
        { t with
          framer := { s.framer with win := win }
          cbKind := .info
          trace := s.trace ++ [.callbackInfo]
          seq := { s.seq with code := .callback } }
       else { t with framer := { s.framer with win := win } })

/-- 41_framer.md R203, R204, R205 (with R200, R216): one byte in WaitId and in WaitLength. -/
def Obligations.AddressAndLengthBytes : Prop :=
  ∀ (s : State) (b : Byte) (rest : List Byte),
    s.ports.rxFifo = b :: rest → s.drainFrames.toNat < s.cfg.framesPerDrain →
    let t : State := { s with ports := { s.ports with rxFifo := rest } }
    (s.framer.fstate = .waitId →
      exec .seqDrain s = .next
        { t with
          framer := { s.framer with
                      forMe := decide (b = s.mem.nodeAddr ∨ b = s.cfg.broadcastAddr), fstate := .waitLength } })
    ∧ (s.framer.fstate = .waitLength →
      exec .seqDrain s = .next
        (if b.toNat ≤ 1 ∨ 128 < b.toNat then
          { t with framer := { s.framer with flen := 0, fidx := 0, forMe := false, fstate := .waitStart } }
         else if s.framer.forMe = true then
          { t with framer := { s.framer with flen := b, fidx := 0, fstate := .receive } }
         else { t with framer := { s.framer with flen := b, fidx := 0, unloadCnt := b, fstate := .unload } }))

/-- 41_framer.md R206, R207 (with R200, R216; 20_memory.md R104): one payload byte in Receive; the last one commits the frame
and calls the command processor. The index is below the buffer's size and the buffers are canonical in every state of
`Legal`. -/
def Obligations.ReceiveStoresAndCommits : Prop :=
  ∀ (s : State) (b : Byte) (rest : List Byte),
    s.ports.rxFifo = b :: rest → s.drainFrames.toNat < s.cfg.framesPerDrain → s.framer.fstate = .receive →
    s.framer.fidx.toNat < 128 → memWf s.framer.fbuf = true → memWf s.rxc.buf = true →
    ∃ t : State, exec .seqDrain s = .next t
      ∧ (∀ a, memRead t.framer.fbuf a = if a = s.framer.fidx.toNat then b else memRead s.framer.fbuf a)
      ∧ (s.framer.fidx + 1 ≠ s.framer.flen →
          t = { s with
                ports := { s.ports with rxFifo := rest }
                framer := { s.framer with fbuf := t.framer.fbuf, fidx := s.framer.fidx + 1 } })
      ∧ (s.framer.fidx + 1 = s.framer.flen →
          (∀ a, memRead t.rxc.buf a =
            if a < s.framer.flen.toNat then memRead t.framer.fbuf a else memRead s.rxc.buf a)
          ∧ t = { s with
                  ports := { s.ports with rxFifo := rest }
                  framer := { s.framer with fbuf := t.framer.fbuf, fstate := .waitStart, fidx := 0, flen := 0 }
                  rxc := { buf := t.rxc.buf, len := s.framer.flen, ready := true }
                  drainFrames := s.drainFrames + 1
                  cbKind := .frame
                  trace := s.trace ++ [.callbackFrame s.framer.flen]
                  seq := { s.seq with code := .callback } })

/-- 41_framer.md R210, R211 (with R200, R216): one skipped byte in Unload; the last one pulses the flow-control line and ends
the frame. -/
def Obligations.UnloadCountsDownAndPulses : Prop :=
  ∀ (s : State) (b : Byte) (rest : List Byte),
    s.ports.rxFifo = b :: rest → s.drainFrames.toNat < s.cfg.framesPerDrain → s.framer.fstate = .unload →
    1 ≤ s.framer.unloadCnt.toNat →
    exec .seqDrain s = .next
      (if s.framer.unloadCnt.toNat = 1 then
        { s with
          ports := { s.ports with rxFifo := rest, flowctl := true }
          framer := { s.framer with unloadCnt := 0, fstate := .waitStart, flen := 0, fidx := 0 }
          drainFrames := s.drainFrames + 1
          trace := s.trace ++ [.flowctlPulse] }
      else
        { s with
          ports := { s.ports with rxFifo := rest }
          framer := { s.framer with unloadCnt := s.framer.unloadCnt - 1 } })

/-! ### The code rows as instructions -/

/-- The model's choice of notes/assumptions/6.md: a FRAMER row takes the oldest received byte as the DRAIN step of that framer
state does, and with no byte it changes nothing. -/
def Obligations.FramerRowsAreTheDrainStep : Prop :=
  ∀ (f : FramerCode) (s : State),
    (s.ports.rxFifo = [] → exec f.instr s = .next s)
    ∧ (s.framer.fstate = f → s.ports.rxFifo ≠ [] → (f = .receive → s.framer.fidx.toNat < 128) →
        ∃ t, exec f.instr s = .next t ∧ (s.drainFrames.toNat < s.cfg.framesPerDrain → exec .seqDrain s = .next t))

/-- The model's choice of notes/assumptions/5.md: a MODE row is the motor step in that mode of the motor `seq_idx` names, and an
INPUT row the input override in that mode: what MOTOR and INPUT_OVR do with the mode selected, but for the move of the
sequencer. -/
def Obligations.ModeAndInputRowsAreTheBodies : Prop :=
  ∀ s : State,
    (∀ (c : ModeCode) (m : Fin 2), s.seq.idx = m.castSucc →
      ∃ t, exec c.instr s = .next t ∧ t.seq = s.seq ∧ t.mem = s.mem
        ∧ exec .seqMotor { s with mem := { s.mem with ctrlMode := c.bits } } =
            .next { t with mem := { s.mem with ctrlMode := c.bits }, seq := { s.seq with code := .pollD } })
    ∧ (∀ c : InputCode,
      ∃ t, exec c.instr s = .next t ∧ t.seq = s.seq ∧ t.mem = s.mem
        ∧ exec .seqInputOvr { s with mem := { s.mem with inputMode := c.bits } } =
            .next { t with mem := { s.mem with inputMode := c.bits }, seq := ⟨.motor, 0⟩ })

/-- The model's choice of notes/assumptions/5.md: a CALPH row is the calibration invocation of that phase: what the CAL step
does in that phase when the divider wraps, but for the divider and the move of the sequencer. -/
def Obligations.CalphRowsAreTheInvocation : Prop :=
  ∀ (p : CalphCode) (s : State), s.cal.phase = p → 1 ≤ s.cfg.calDiv →
    ∃ t, exec p.instr s = .next t ∧ t.seq = s.seq ∧ t.calDiv = s.calDiv
      ∧ exec .seqCal { s with calDiv := s.cfg.calDiv - 1 } =
          .next { t with calDiv := 0, seq := { s.seq with code := .swap } }

/-! ### Encodings -/

/-- Decoding the encoding of a well-formed instruction gives it back, for every instruction and every operand. -/
def Obligations.DecodeOfEncode : Prop :=
  ∀ i : Instr, i.wellFormed = true → decode (encode i) = .ok i

/-- A word or code that decodes is the encoding of what it decodes to, and that is well formed: no bit is dropped. -/
def Obligations.EncodeOfDecode : Prop :=
  ∀ (e : Encoded) (i : Instr), decode e = .ok i → encode i = e ∧ i.wellFormed = true

/-- 30_encoding.md R134, R160: a transaction word decodes exactly when its fields are well formed. -/
def Obligations.TransactionDecodesIffWellFormed : Prop :=
  ∀ w : TxnWord, (∃ i, decode (.txn w) = .ok i) ↔ TxnWellFormed w

/-- 30_encoding.md R133, R140, R145, R150, R152, R155: one word of each transaction, and every code of every other family with
its number, written out, decode to their instructions; every other code decodes to none. -/
def Obligations.SampleWordsDecode : Prop :=
  (∀ p ∈ ([(0x0100000000000000, .reset), (0x0200000000000000, .timer), (0x030000000000003A, .rxb 0x3A),
        (0x0402000000010001, .enc 2 0x00010001), (0x0500000000002EE0, .adc 0 12000), (0x0600000000000000, .adcdone),
        (0x07310000FFFFFFE2, .wr 0x31 0xFFFFFFE2), (0x0865000000000000, .rd 0x65), (0x0900000000000000, .hdone),
        (0x0A00000000000000, .step)] : List (TxnWord × Instr)),
      decode (.txn p.1) = .ok p.2)
  ∧ (∀ p ∈ ([(0x00, .seqIdle), (0x01, .seqAdcStart), (0x02, .seqDrainB), (0x03, .seqEnc), (0x04, .seqPollC),
        (0x05, .seqInputOvr), (0x06, .seqMotor), (0x07, .seqPollD), (0x08, .seqAdcWait), (0x09, .seqAfe),
        (0x0A, .seqCal), (0x0B, .seqSwap), (0x0C, .seqDrain), (0x0D, .seqCallback)] : List (BitVec 5 × Instr)),
      decode (.seq p.1) = .ok p.2)
  ∧ (∀ p ∈ ([(0, .framerWaitStart), (1, .framerWaitId), (2, .framerWaitLength), (3, .framerReceive), (4, .framerUnload)] :
        List (BitVec 3 × Instr)),
      decode (.framer p.1) = .ok p.2)
  ∧ (∀ p ∈ ([(0, .modePosition), (1, .modePwm), (2, .modeCurrent), (3, .modePosCurr), (4, .modeDeflection),
        (5, .modeDeflCurr)] : List (BitVec 8 × Instr)),
      decode (.mode p.1) = .ok p.2)
  ∧ (∀ p ∈ ([(0, .inputExternal), (1, .inputEncoder3)] : List (BitVec 8 × Instr)), decode (.input p.1) = .ok p.2)
  ∧ (∀ p ∈ ([(0, .calphStop), (1, .calphStart), (2, .calphPause1), (3, .calphContinue1), (4, .calphPause2),
        (5, .calphContinue2)] : List (BitVec 3 × Instr)),
      decode (.calph p.1) = .ok p.2)
  ∧ (∀ i : Instr,
      (∀ c : BitVec 5, 14 ≤ c.toNat → decode (.seq c) ≠ .ok i) ∧ (∀ c : BitVec 3, 5 ≤ c.toNat → decode (.framer c) ≠ .ok i)
      ∧ (∀ c : BitVec 8, 6 ≤ c.toNat → decode (.mode c) ≠ .ok i) ∧ (∀ c : BitVec 8, 2 ≤ c.toNat → decode (.input c) ≠ .ok i)
      ∧ (∀ c : BitVec 3, 6 ≤ c.toNat → decode (.calph c) ≠ .ok i))

/-! ### The step -/

/-- A step runs the decoded instruction: with valid parameters and a next word that decodes to i, the step is exec of i in the
state with the word consumed (the stream of words is the model's, notes/assumptions/1.md). -/
def Obligations.StepRunsTheDecodedInstruction : Prop :=
  ∀ (s : State) (w : TxnWord) (rest : List TxnWord) (i : Instr),
    s.cfg.valid = true → s.txns = w :: rest → decode (.txn w) = .ok i →
    step s = exec i { s with txns := rest }

/-- 47_host_interface.md R373, 30_encoding.md R134: a word that is not well formed is consumed without effect, and with no word
the state stays (the stream is the model's, notes/assumptions/1.md). 00_scope.md R11, R19: parameters that break a constraint
are refused, by the step (notes/assumptions/10.md); so are those outside the ranges that the model asks for beside R11
(`BreaksRanges`: the bounds are the model's reading, notes/assumptions/9.md), and no others. -/
def Obligations.StepWithoutAnInstruction : Prop :=
  ∀ s : State,
    (s.cfg.valid = true → s.txns = [] → step s = .next s)
    ∧ (∀ (w : TxnWord) (rest : List TxnWord), s.cfg.valid = true → s.txns = w :: rest → ¬ TxnWellFormed w →
        step s = .next { s with txns := rest })
    ∧ (s.cfg.valid = false → step s = .refused .badParameters)
    ∧ (BreaksR11 s.cfg → step s = .refused .badParameters)
    ∧ (BreaksRanges s.cfg → step s = .refused .badParameters)
    ∧ (¬ BreaksR11 s.cfg → ¬ BreaksRanges s.cfg → s.cfg.valid = true ∧ ∀ r, step s ≠ .refused r)

/-! ### Invariants and rules over the whole machine -/

/-- The state after reset meets the invariant. -/
def Obligations.ResetMeetsTheInvariant : Prop := Legal State.reset

/-- From every state of the invariant, whatever transaction comes next, the step gives a next state of the invariant. -/
def Obligations.EveryStepKeepsTheInvariant : Prop :=
  ∀ s : State, Legal s → ∃ t, step s = .next t ∧ Legal t

/-- 60_exceptions.md R380: no instruction stops. Every one gives a next state in every state, but that a motor step (MOTOR, STEP
there, a MODE row) needs a motor index the spec has (notes/assumptions/7.md) and a payload byte taken in Receive (by the
Receive row, by DRAIN, by STEP there) an index inside the buffer (notes/assumptions/8.md). -/
def Obligations.NoInstructionRaisesAnException : Prop :=
  ∀ (i : Instr) (s : State),
    (i ∈ [.seqMotor, .modePosition, .modePwm, .modeCurrent, .modePosCurr, .modeDeflection, .modeDeflCurr]
        ∨ (i = .step ∧ s.seq.code = .motor) →
      s.seq.idx ≠ 2) →
    (s.ports.rxFifo ≠ [] →
      i = .framerReceive
        ∨ ((i = .seqDrain ∨ (i = .step ∧ s.seq.code = .drain)) ∧ s.framer.fstate = .receive
          ∧ s.drainFrames.toNat < s.cfg.framesPerDrain) →
      s.framer.fidx.toNat < 128) →
    ∃ t, exec i s = .next t

/-- The model's stops (notes/assumptions/7.md, 8.md): a motor step with `seq_idx` = 2 and a payload byte with no place in the
buffer fault by name, in states no run of the invariant reaches; no instruction is refused. -/
def Obligations.StopsOutsideTheRegisterRanges : Prop :=
  (∀ s : State, s.seq.idx = 2 →
    exec .seqMotor s = .fault .noSuchMotor ∧ (s.seq.code = .motor → exec .step s = .fault .noSuchMotor)
    ∧ ∀ c : ModeCode, exec c.instr s = .fault .noSuchMotor)
  ∧ (∀ s : State, 128 ≤ s.framer.fidx.toNat → s.ports.rxFifo ≠ [] →
    exec .framerReceive s = .fault .bufferBounds
    ∧ (s.framer.fstate = .receive → s.drainFrames.toNat < s.cfg.framesPerDrain →
      exec .seqDrain s = .fault .bufferBounds ∧ (s.seq.code = .drain → exec .step s = .fault .bufferBounds)))
  ∧ ∀ (i : Instr) (s : State) (r : Refusal), exec i s ≠ .refused r

/-- 10_state.md R44, 70_reset_and_hazards.md R410: Mem changes only by RESET, by a host write to one of its addresses in IDLE or
CALLBACK, and by the calibration phases Pause1 and Continue1, which change only g_pos and max_stiff. -/
def Obligations.WritersOfMem : Prop :=
  ∀ (i : Instr) (s t : State), exec i s = .next t →
    t.mem = s.mem ∨ i = .reset
    ∨ (∃ a v, i = .wr a v ∧ a.toNat ∈ memAddresses ∧ (s.seq.code = .idle ∨ s.seq.code = .callback))
    ∨ ((i = .calphPause1 ∨ i = .calphContinue1
        ∨ ((i = .seqCal ∨ (i = .step ∧ s.seq.code = .cal)) ∧ s.calDiv + 1 = s.cfg.calDiv
            ∧ (s.cal.phase = .pause1 ∨ s.cal.phase = .continue1)))
      ∧ t.mem = { s.mem with gPos := t.mem.gPos, maxStiff := t.mem.maxStiff })

/-- 10_state.md R40, R42: the committed references change only by RESET, by SWAP, which copies the pending ones, and by the
input override, which keeps the enables; the two snapshots change only by RESET and SWAP. -/
def Obligations.WritersOfCommittedReferences : Prop :=
  ∀ (i : Instr) (s t : State), exec i s = .next t → i ≠ .reset →
    (i = .seqSwap ∨ (i = .step ∧ s.seq.code = .swap)
      → t.refC = s.refP ∧ t.refPrev = s.refC ∧ t.measPrev = s.meas)
    ∧ (¬(i = .seqSwap ∨ (i = .step ∧ s.seq.code = .swap))
      → t.refPrev = s.refPrev ∧ t.measPrev = s.measPrev ∧ t.refC.onoff = s.refC.onoff
        ∧ (t.refC = s.refC ∨ i = .inputEncoder3
            ∨ ((i = .seqInputOvr ∨ (i = .step ∧ s.seq.code = .inputOvr)) ∧ s.mem.inputMode = 1)))

/-- 44_motor_control.md R296, R285, R286: the accumulators change only by RESET and by a motor step in a mode with a PID; a
change of mode keeps them. -/
def Obligations.AccumulatorsSurviveModeChanges : Prop :=
  ∀ (i : Instr) (s t : State), exec i s = .next t →
    t.pid = s.pid ∨ i = .reset
    ∨ i ∈ [.modePosition, .modeCurrent, .modePosCurr, .modeDeflection, .modeDeflCurr]
    ∨ ((i = .seqMotor ∨ (i = .step ∧ s.seq.code = .motor)) ∧ s.mem.ctrlMode.toNat ≤ 5 ∧ s.mem.ctrlMode ≠ 1)

/-- 40_scheduler.md R185: a tick starts only from IDLE, and only when one is requested. -/
def Obligations.TicksStartOnlyFromIdle : Prop :=
  ∀ s t : State, Legal s → step s = .next t → t.seq.code = .adcStart → s.seq.code ≠ .adcStart →
    s.seq.code = .idle ∧ s.tickPending = true ∧ t.tickPending = false

/-- 47_host_interface.md R360, R366: while the core holds for the host, no transaction but RESET and HDONE moves it, starts a
tick, takes a received byte or changes what the control steps wrote. -/
def Obligations.OnlyHdoneOrResetLeavesACallback : Prop :=
  ∀ s t : State, s.seq.code = .callback → step s = .next t →
    (∀ w rest, s.txns = w :: rest → decode (.txn w) ≠ .ok .reset ∧ decode (.txn w) ≠ .ok .hdone) →
    t.seq = s.seq ∧ t.cbKind = s.cbKind ∧ t.drainRet = s.drainRet ∧ t.framer = s.framer ∧ s.ports.rxFifo <+: t.ports.rxFifo
      ∧ t.pid = s.pid ∧ t.drive = s.drive ∧ t.meas = s.meas ∧ t.refC = s.refC

/-- 46_calibration.md R334, R339: CONTINUE1 is left only by a capture, with a current above the threshold, or by RESET. -/
def Obligations.Continue1HasNoTimeout : Prop :=
  ∀ s t : State, step s = .next t → s.cal.phase = .continue1 → t.cal.phase ≠ .continue1 →
    (∃ w rest, s.txns = w :: rest ∧ decode (.txn w) = .ok .reset)
    ∨ (t.cal.phase = .pause2 ∧ s.seq.code = .cal
        ∧ (s.cfg.calCurrThresh < max s.meas.curr.a0.toInt (-s.meas.curr.a0.toInt)
            ∨ s.cfg.calCurrThresh < max s.meas.curr.a1.toInt (-s.meas.curr.a1.toInt)))

/-- 00_scope.md R16, 70_reset_and_hazards.md R410: the output trace only grows, and no instruction changes the parameters or
the words still to come (the model's fields). -/
def Obligations.TheTraceOnlyGrows : Prop :=
  ∀ (i : Instr) (s t : State), exec i s = .next t → s.trace <+: t.trace ∧ t.cfg = s.cfg ∧ t.txns = s.txns

/-! ### Numeric laws -/

/-- 42_numeric_utils.md R230: the checksum starts from 0 and takes a byte in by XOR, so that with the law of a concatenation it
is the XOR of all the bytes; R231: that law, and that a sequence followed by its checksum has checksum 0. -/
def Obligations.ChecksumLaws : Prop :=
  checksum [] = 0
  ∧ (∀ b : Byte, checksum [b] = b)
  ∧ (∀ a b : List Byte, checksum (a ++ b) = checksum a ^^^ checksum b)
  ∧ ∀ a : List Byte, checksum (a ++ [checksum a]) = 0

/-- 42_numeric_utils.md R232, R233: for every acceptance table, a word is valid exactly when the table's bit at its 4-bit hash,
the XOR of the two halves of the XOR of its four bytes, is 1. Under the default table that is when it has an even number of 1
bits, one flipped bit makes a valid word invalid, and two flipped bits leave it valid. -/
def Obligations.DefaultTableAcceptsEvenParity : Prop :=
  ∀ w : W32,
    (∀ accept : BitVec 16,
      let x : Byte := w.setWidth 8 ^^^ (w >>> 8).setWidth 8 ^^^ (w >>> 16).setWidth 8 ^^^ (w >>> 24).setWidth 8
      let h : BitVec 4 := x.setWidth 4 ^^^ (x >>> 4).setWidth 4
      encValid accept w = accept.getLsbD h.toNat)
    ∧ (encValid 0x9669 w = true ↔ ((List.range 32).countP fun i => w.getLsbD i) % 2 = 0)
    ∧ (encValid 0x9669 w = true → ∀ i, i < 32 → encValid 0x9669 (w ^^^ BitVec.twoPow 32 i) = false)
    ∧ (encValid 0x9669 w = true → ∀ i j, i < 32 → j < 32 → i ≠ j →
        encValid 0x9669 (w ^^^ BitVec.twoPow 32 i ^^^ BitVec.twoPow 32 j) = true)

/-- 42_numeric_utils.md R235: the filter's new value lies between the state and the input, a state equal to the input is a fixed
point, and a falling input is approached strictly. -/
def Obligations.FilterStaysBetween : Prop :=
  ∀ (alpha old x : Int) (shift : Nat), 0 ≤ alpha → alpha ≤ 2 ^ shift →
    (min old x ≤ filterValue alpha shift old x ∧ filterValue alpha shift old x ≤ max old x)
    ∧ filterValue alpha shift x x = x
    ∧ (0 < alpha → x < old → filterValue alpha shift old x < old)
    ∧ (old < x → (x - old) * alpha < 2 ^ shift → filterValue alpha shift old x = old)

/-- 45_analog_derating.md R314: full duty below the table, none at and above its end, the table's entry between (its index is
inside the table). With 45_analog_derating.md R315, which the spec derives, and 00_scope.md R19: never above 100 and never
rising with the voltage. -/
def Obligations.DeratingLaws : Prop :=
  ∀ c : Config, c.valid = true →
    (∀ v, v < c.vLo → derate c v = 100)
    ∧ (∀ v, c.vHi ≤ v → derate c v = 0)
    ∧ (∀ v, c.vLo ≤ v → v < c.vHi → c.derateTable[((v - c.vLo) / c.vStep).toNat]? = some (derate c v))
    ∧ (∀ v, (derate c v).toNat ≤ 100)
    ∧ (∀ v w, v ≤ w → (derate c w).toNat ≤ (derate c v).toNat)

/-! ### Bounded runs -/

/-- 30_encoding.md R163: RUN always stops: from every state of the invariant, at a hold, after at most 64 STEPs beside one for
each byte in the FIFO. The number 64 is the model's bound; R163 gives none. -/
def Obligations.RunAlwaysStops : Prop :=
  ∀ s : State, Legal s → ∃ t, asmRun (64 + s.ports.rxFifo.length) s = .next t ∧ atHold t = true

/-- 40_scheduler.md R184: the order of a tick from IDLE to ADC_WAIT with nothing received, and what it emits. -/
def Obligations.OrderOfAnEmptyTick : Prop :=
  ∀ s : State, s.seq.code = .idle → s.tickPending = true → s.rxEnabled = true → s.rxFlag = false → s.ports.rxFifo = [] →
    visited 15 s =
      [s.seq, ⟨.adcStart, s.seq.idx⟩, ⟨.drainB, s.seq.idx⟩, ⟨.drain, s.seq.idx⟩,
       ⟨.enc, 0⟩, ⟨.pollC, 0⟩, ⟨.enc, 1⟩, ⟨.pollC, 1⟩, ⟨.enc, 2⟩, ⟨.pollC, 2⟩,
       ⟨.inputOvr, 0⟩, ⟨.motor, 0⟩, ⟨.pollD, 0⟩, ⟨.motor, 1⟩, ⟨.pollD, 1⟩, ⟨.adcWait, 0⟩]
    ∧ ∃ (t : State) (d0 d1 : Bool) (m0 m1 : W16), execTimes .step 15 s = .next t
      ∧ t.trace = s.trace ++ [.adcStart, .pwm 0 d0 m0, .pwm 1 d1 m1]
      ∧ t.ports.adcReady = false ∧ t.tickPending = false ∧ atHold t = true

/-- 41_framer.md R212, with R201 to R207: a frame for this node, whole in the FIFO, is consumed in 4 + L steps of the drain,
committed and handed to the command processor; the bytes after it stay. The in-progress registers end as R201, R203 and R207
leave them, the frame buffer holding the payload. -/
def Obligations.OwnFrameIsDispatched : Prop :=
  ∀ (s : State) (addr len : Byte) (payload rest : List Byte),
    let mark := s.cfg.startMark
    s.seq.code = .drain → s.framer.fstate = .waitStart → s.drainFrames.toNat < s.cfg.framesPerDrain →
    s.framer.win.a2 ≠ mark → (⟨s.framer.win.a1, s.framer.win.a2, mark⟩ : Three Byte) ≠ s.cfg.querySeq →
    addr = s.mem.nodeAddr ∨ addr = s.cfg.broadcastAddr →
    2 ≤ len.toNat → len.toNat ≤ maxFrame → payload.length = len.toNat →
    memWf s.framer.fbuf = true → memWf s.rxc.buf = true →
    s.ports.rxFifo = mark :: mark :: addr :: len :: (payload ++ rest) →
    ∃ t, execTimes .step (4 + len.toNat) s = .next t
      ∧ (∀ i (h : i < payload.length), memRead t.rxc.buf i = payload[i])
      ∧ (∀ a, len.toNat ≤ a → memRead t.rxc.buf a = memRead s.rxc.buf a)
      ∧ (∀ i (h : i < payload.length), memRead t.framer.fbuf i = payload[i])
      ∧ (∀ a, len.toNat ≤ a → memRead t.framer.fbuf a = memRead s.framer.fbuf a)
      ∧ t = { s with
              seq := { s.seq with code := .callback }
              cbKind := .frame
              framer := { s.framer with
                          fstate := .waitStart, win := ⟨0, 0, 0⟩, forMe := true, flen := 0, fidx := 0
                          fbuf := t.framer.fbuf }
              rxc := { buf := t.rxc.buf, len := len, ready := true }
              drainFrames := s.drainFrames + 1
              ports := { s.ports with rxFifo := rest }
              trace := s.trace ++ [.callbackFrame len] }

/-- 41_framer.md R212, with R201 to R211: a frame for another node is skipped in 4 + L steps of the drain: nothing is dispatched
or committed, and the flow-control line is pulsed once. The in-progress registers end as R201, R203 and R211 leave them, and
the frame buffer is kept. -/
def Obligations.ForeignFrameIsSkipped : Prop :=
  ∀ (s : State) (addr len : Byte) (payload rest : List Byte),
    let mark := s.cfg.startMark
    s.seq.code = .drain → s.framer.fstate = .waitStart → s.drainFrames.toNat < s.cfg.framesPerDrain →
    s.framer.win.a2 ≠ mark → (⟨s.framer.win.a1, s.framer.win.a2, mark⟩ : Three Byte) ≠ s.cfg.querySeq →
    addr ≠ s.mem.nodeAddr → addr ≠ s.cfg.broadcastAddr →
    2 ≤ len.toNat → len.toNat ≤ maxFrame → payload.length = len.toNat →
    s.ports.rxFifo = mark :: mark :: addr :: len :: (payload ++ rest) →
    ∃ t, execTimes .step (4 + len.toNat) s = .next t
      ∧ t = { s with
              framer := { s.framer with
                          fstate := .waitStart, win := ⟨0, 0, 0⟩, forMe := false, flen := 0, fidx := 0, unloadCnt := 0 }
              drainFrames := s.drainFrames + 1
              ports := { s.ports with rxFifo := rest, flowctl := true }
              trace := s.trace ++ [.flowctlPulse] }
end

