-- ==== Sys2Proof/Laws/Operands.lean ====
section
/-! SUPPORT. The components of a pair and a triple, the motors a sequencer index names, and the narrowing primitives. -/

namespace Sys2Proof

theorem Two.get_set {α : Type} (t : Two α) (m j : Fin 2) (v : α) : (t.set m v).get j = if j = m then v else t.get j := by
  fin_cases m <;> fin_cases j <;> rfl

theorem Three.get_set {α : Type} (t : Three α) (k j : Fin 3) (v : α) : (t.set k v).get j = if j = k then v else t.get j := by
  fin_cases k <;> fin_cases j <;> rfl

@[simp] theorem Two.set_get {α : Type} (t : Two α) (m : Fin 2) : t.set m (t.get m) = t := by
  fin_cases m <;> rfl

@[simp] theorem Three.set_get {α : Type} (t : Three α) (k : Fin 3) : t.set k (t.get k) = t := by
  fin_cases k <;> rfl

@[simp] theorem motorOf_castSucc (m : Fin 2) : motorOf m.castSucc = some m := by
  revert m; decide

theorem motorOf_eq_some {i : Fin 3} (h : i ≠ 2) : ∃ m, motorOf i = some m := by
  revert h; revert i; decide

theorem index3_ofNat (k : Fin 3) : index3 (BitVec.ofNat 8 k.val) = some k := by
  revert k; decide

/-- Storing a wrapped value in 32 bits stores the value. -/
theorem ofInt_wrap32 (v : Int) : BitVec.ofInt 32 (wrap32 v) = BitVec.ofInt 32 v := BitVec.ofInt_toInt

theorem wrap32_range (v : Int) : -2147483648 ≤ wrap32 v ∧ wrap32 v ≤ 2147483647 := by
  have h1 := BitVec.le_toInt (BitVec.ofInt 32 v)
  have h2 := BitVec.toInt_lt (x := BitVec.ofInt 32 v)
  unfold wrap32
  constructor <;> norm_num at * <;> omega

/-- A value inside int32 is not changed by the wrap. -/
theorem wrap32_of_range {v : Int} (h1 : -2147483648 ≤ v) (h2 : v ≤ 2147483647) : wrap32 v = v := by
  unfold wrap32
  rw [BitVec.toInt_ofInt, Int.bmod_def]
  norm_num
  omega

theorem iabs_eq_max (v : Int) : iabs v = max v (-v) := by
  unfold iabs; split <;> omega

theorem clamp_range {v lo hi : Int} (h : lo ≤ hi) : lo ≤ clamp v lo hi ∧ clamp v lo hi ≤ hi := by
  unfold clamp; omega

end Sys2Proof
end

