-- ==== Sys2Proof/Laws/Calibration.lean ====
section
/-! SUPPORT. What a calibration invocation and the CAL step can do (46_calibration.md, 40_scheduler.md R181). -/

namespace Sys2Proof.Machine

open Sys2Proof

/-- The check captures the other motor's committed reference, or changes nothing (46_calibration.md R334). -/
theorem calCheck_cases (s : State) :
    (s.cfg.calCurrThresh < iabs (s.meas.curr.get 0).toInt ∧ calCheck s = calCapture 1 s)
    ∨ (¬ s.cfg.calCurrThresh < iabs (s.meas.curr.get 0).toInt ∧ s.cfg.calCurrThresh < iabs (s.meas.curr.get 1).toInt
        ∧ calCheck s = calCapture 0 s)
    ∨ (¬ s.cfg.calCurrThresh < iabs (s.meas.curr.get 0).toInt ∧ ¬ s.cfg.calCurrThresh < iabs (s.meas.curr.get 1).toInt
        ∧ calCheck s = s) := by
  unfold calCheck
  by_cases h0 : s.cfg.calCurrThresh < iabs (s.meas.curr.get 0).toInt
  · exact .inl ⟨h0, by rw [if_pos h0]⟩
  · by_cases h1 : s.cfg.calCurrThresh < iabs (s.meas.curr.get 1).toInt
    · exact .inr (.inl ⟨h0, h1, by rw [if_neg h0, if_pos h1]⟩)
    · exact .inr (.inr ⟨h0, h1, by rw [if_neg h0, if_neg h1]⟩)

/-- What an invocation may change: the pending references, the session, the enable of reception, the trace, and of Mem the
position gains and the captured value (46_calibration.md R331 to R336). -/
theorem calPhaseBody_frame (p : CalphCode) (s : State) :
    calPhaseBody p s =
      { s with
        refP := (calPhaseBody p s).refP
        cal := (calPhaseBody p s).cal
        rxEnabled := (calPhaseBody p s).rxEnabled
        trace := (calPhaseBody p s).trace
        mem := { s.mem with gPos := (calPhaseBody p s).mem.gPos, maxStiff := (calPhaseBody p s).mem.maxStiff } } := by
  cases p with
  | stop | start | continue2 => rfl
  | pause1 => simp only [calPhaseBody, calPause1]; split <;> rfl
  | pause2 => simp only [calPhaseBody, calPause2]; split <;> rfl
  | continue1 =>
    simp only [calPhaseBody, calContinue1]
    rcases calCheck_cases (calSweep s) with ⟨-, h⟩ | ⟨-, -, h⟩ | ⟨-, -, h⟩ <;> rw [h] <;> rfl

/-- The CAL step's body: the divider wraps with one invocation, or counts (40_scheduler.md R181). -/
theorem calTick_cases (s : State) :
    (s.calDiv + 1 = s.cfg.calDiv ∧ calTick s = calPhaseBody s.cal.phase { s with calDiv := 0 })
    ∨ (s.calDiv + 1 ≠ s.cfg.calDiv ∧ calTick s = { s with calDiv := s.calDiv + 1 }) := by
  unfold calTick
  by_cases h : s.calDiv + 1 = s.cfg.calDiv
  · exact .inl ⟨h, by rw [if_pos h]; rfl⟩
  · exact .inr ⟨h, by rw [if_neg h]⟩

end Sys2Proof.Machine
end

