-- ==== Sys2Proof/Laws/Decode.lean ====
section
/-! SUPPORT. The fields of a transaction word and the codes of the enumerations, each way. -/

namespace Sys2Proof

theorem txnOp_txnWord (o a : Byte) (d : W32) : txnOp (txnWord o a d) = o := by
  unfold txnOp txnWord
  apply BitVec.eq_of_getLsbD_eq
  intro i hi
  rw [BitVec.getLsbD_extractLsb', BitVec.getLsbD_append, BitVec.getLsbD_append, BitVec.getLsbD_append]
  simp [hi, show ¬ 56 + i < 32 by omega, show ¬ 56 + i - 32 < 16 by omega, show ¬ 56 + i - 32 - 16 < 8 by omega,
    show 56 + i - 32 - 16 - 8 = i by omega]

theorem txnAi_txnWord (o a : Byte) (d : W32) : txnAi (txnWord o a d) = a := by
  unfold txnAi txnWord
  apply BitVec.eq_of_getLsbD_eq
  intro i hi
  rw [BitVec.getLsbD_extractLsb', BitVec.getLsbD_append, BitVec.getLsbD_append, BitVec.getLsbD_append]
  simp [hi, show ¬ 48 + i < 32 by omega, show ¬ 48 + i - 32 < 16 by omega, show 48 + i - 32 - 16 = i by omega]

theorem txnRsv_txnWord (o a : Byte) (d : W32) : txnRsv (txnWord o a d) = 0 := by
  unfold txnRsv txnWord
  apply BitVec.eq_of_getLsbD_eq
  intro i hi
  rw [BitVec.getLsbD_extractLsb', BitVec.getLsbD_append, BitVec.getLsbD_append, BitVec.getLsbD_append]
  simp [hi, show ¬ 32 + i < 32 by omega]

theorem txnData_txnWord (o a : Byte) (d : W32) : txnData (txnWord o a d) = d := by
  unfold txnData txnWord
  apply BitVec.eq_of_getLsbD_eq
  intro i hi
  rw [BitVec.getLsbD_extractLsb', BitVec.getLsbD_append]
  simp [hi]

/-- A word with RSV = 0 is the word of its fields (30_encoding.md R131). -/
theorem txnWord_fields {w : TxnWord} (h : txnRsv w = 0) : txnWord (txnOp w) (txnAi w) (txnData w) = w := by
  unfold txnOp txnAi txnData txnWord
  rw [← h]
  unfold txnRsv
  apply BitVec.eq_of_getLsbD_eq
  intro i hi
  rw [BitVec.getLsbD_append, BitVec.getLsbD_append, BitVec.getLsbD_append]
  simp only [BitVec.getLsbD_extractLsb']
  split
  · simp [*]
  · split
    · simp [*, show 32 + (i - 32) = i by omega]
    · split
      · simp [*, show 48 + (i - 32 - 16) = i by omega]
      · simp [show i - 32 - 16 - 8 < 8 by omega, show 56 + (i - 32 - 16 - 8) = i by omega]

@[simp] theorem seqCodeOf_bits (c : SeqCode) : seqCodeOf c.bits = some c := by cases c <;> rfl

@[simp] theorem framerCodeOf_bits (c : FramerCode) : framerCodeOf c.bits = some c := by cases c <;> rfl

@[simp] theorem modeCodeOf_bits (c : ModeCode) : modeCodeOf c.bits = some c := by cases c <;> rfl

@[simp] theorem inputCodeOf_bits (c : InputCode) : inputCodeOf c.bits = some c := by cases c <;> rfl

@[simp] theorem calphCodeOf_bits (c : CalphCode) : calphCodeOf c.bits = some c := by cases c <;> rfl

/-- The modes 6..255 are reserved (30_encoding.md R150). -/
theorem modeCodeOf_reserved {b : Byte} (h : 6 ≤ b.toNat) : modeCodeOf b = none := by
  unfold modeCodeOf
  split <;> first | rfl | omega

end Sys2Proof
end

