-- ==== Sys2Proof/Laws/Encoder.lean ====
section
/-! SUPPORT. What the encoder step can do (43_encoder.md). -/

namespace Sys2Proof

/-- The angle field as the shift and mask of 43_encoder.md R252. -/
theorem angle16_eq (shift bits : Nat) (w : W32) :
    angle16 shift bits w = ((w.toNat >>> shift) &&& (2 ^ bits - 1)) <<< (16 - bits) := by
  unfold angle16
  rw [Nat.and_two_pow_sub_one_eq_mod, Nat.shiftRight_eq_div_pow, Nat.shiftLeft_eq]

@[simp] theorem q3_eq : q3 = 49152 := by decide

@[simp] theorem q1_eq : q1 = 16384 := by decide

end Sys2Proof

namespace Sys2Proof.Machine

open Sys2Proof

/-- The reset of the last-known values happens once, and clears its flag (43_encoder.md R250). -/
theorem clearLast_eq (s : State) :
    clearLast s =
      { s with
        enc := { s.enc with last := if s.enc.resetLast = true then ⟨0, 0, 0⟩ else s.enc.last, resetLast := false } } := by
  unfold clearLast
  by_cases h : s.enc.resetLast = true
  · simp [h]
  · have h' : s.enc.resetLast = false := by simpa using h
    rw [if_neg h, if_neg h, show ({ s.enc with last := s.enc.last, resetLast := false } : EncRegs) = s.enc by rw [← h']]

/-- A valid sample changes its own sensor's noise counter, last angle, turns and position only (43_encoder.md R256). -/
theorem unwrapSample_frame (k : Fin 3) (raw : W16) (s : State) :
    ∃ n l t p, unwrapSample k raw s =
      { s with
        enc := { s.enc with noise := s.enc.noise.set k n, last := s.enc.last.set k l }
        meas := { s.meas with turns := s.meas.turns.set k t, pos := s.meas.pos.set k p } } := by
  unfold unwrapSample
  extract_lets delta t n _e
  split
  · exact ⟨_, _, _, _, rfl⟩
  · split
    · exact ⟨_, _, _, _, rfl⟩
    · split
      · split
        · refine ⟨n, s.enc.last.get k, s.meas.turns.get k, s.meas.pos.get k, ?_⟩
          simp only [Three.set_get]
          rfl
        · exact ⟨_, _, _, _, rfl⟩
      · exact ⟨_, _, _, _, rfl⟩

theorem encoderUpdate_seq (k : Fin 3) (s : State) : (encoderUpdate k s).seq = s.seq := by
  unfold encoderUpdate
  extract_lets s1 w
  have h1 : s1.seq = s.seq := by simp only [s1, clearLast_eq]
  split
  · obtain ⟨n, l, t, p, h⟩ := unwrapSample_frame k
      (rawAngle s1.cfg.encShift s1.cfg.encBits (s1.mem.encOff.get k) w) s1
    rw [h]; exact h1
  · exact h1

end Sys2Proof.Machine
end

