-- ==== Sys2Proof/Laws/Memory.lean ====
section
/-! SUPPORT. What the operations on a frame buffer do: read after write, the canonical form and the bound are kept, and what
a copied buffer reads as (20_memory.md R104, 41_framer.md R206, R207). -/

namespace Sys2Proof.Machine

open Sys2Proof

theorem memAbove_trans {lo hi : Nat} {m : Memory} (h : lo ≤ hi) (hm : memAbove hi m = true) : memAbove lo m = true := by
  cases m with
  | nil => rfl
  | cons p _ => simp only [memAbove, decide_eq_true_eq] at *; omega

/-- The three parts of the canonical form of a buffer that lists something. -/
theorem memWf_cons {x : Nat} {b : Byte} {m : Memory} :
    memWf ((x, b) :: m) = true ↔ b ≠ unlisted ∧ memAbove x m = true ∧ memWf m = true := by
  simp [memWf, and_assoc]

/-- An address at or below a bound under every listed address reads as an unlisted one. -/
theorem memRead_of_above {lo a : Nat} {m : Memory} (hm : memAbove lo m = true) (hw : memWf m = true) (ha : a ≤ lo) :
    memRead m a = unlisted := by
  induction m generalizing lo with
  | nil => rfl
  | cons p m ih =>
    obtain ⟨x, b⟩ := p
    obtain ⟨-, hx, hr⟩ := memWf_cons.1 hw
    simp only [memAbove, decide_eq_true_eq] at hm
    have : x ≠ a := by omega
    simp only [memRead, this, if_false]
    exact ih hx hr (by omega)

theorem memRead_memInsert (m : Memory) (a c : Nat) (b : Byte) :
    memRead (memInsert m a b) c = if a = c then b else memRead m c := by
  induction m with
  | nil => simp [memInsert, memRead]
  | cons p m ih =>
    obtain ⟨x, d⟩ := p
    unfold memInsert
    split
    · simp [memRead]
    · split
      · next h => subst h; simp only [memRead]; split <;> rfl
      · next h =>
        simp only [memRead, ih]
        by_cases hx : x = c
        · subst hx; simp [h]
        · simp [hx]

theorem memRead_memErase {m : Memory} (hw : memWf m = true) (a c : Nat) :
    memRead (memErase m a) c = if a = c then unlisted else memRead m c := by
  induction m with
  | nil => simp [memErase, memRead]
  | cons p m ih =>
    obtain ⟨x, d⟩ := p
    obtain ⟨-, hx, hr⟩ := memWf_cons.1 hw
    unfold memErase
    split
    · next h =>
      subst h
      by_cases hc : x = c
      · subst hc; simp [memRead_of_above hx hr le_rfl]
      · simp [memRead, hc]
    · next h =>
      simp only [memRead, ih hr]
      by_cases hc : x = c
      · subst hc; simp [Ne.symm h]
      · simp [hc]

/-- Read after write: the byte written at its address, the old byte at every other (20_memory.md R104). -/
theorem memRead_memWrite {m : Memory} (hw : memWf m = true) (a c : Nat) (b : Byte) :
    memRead (memWrite m a b) c = if a = c then b else memRead m c := by
  unfold memWrite
  split
  · next h => rw [memRead_memErase hw, h]
  · exact memRead_memInsert m a c b

theorem memAbove_memInsert {lo a : Nat} {m : Memory} {b : Byte} (hm : memAbove lo m = true) (ha : lo < a) :
    memAbove lo (memInsert m a b) = true := by
  cases m with
  | nil => simpa [memInsert, memAbove] using ha
  | cons p m =>
    obtain ⟨x, d⟩ := p
    unfold memInsert
    split
    · simpa [memAbove] using ha
    · split
      · simpa [memAbove] using ha
      · simpa [memAbove] using hm

theorem memWf_memInsert {m : Memory} (hw : memWf m = true) (a : Nat) {b : Byte} (hb : b ≠ unlisted) :
    memWf (memInsert m a b) = true := by
  induction m with
  | nil => simpa [memInsert, memWf, memAbove] using hb
  | cons p m ih =>
    obtain ⟨x, d⟩ := p
    obtain ⟨hd, hx, hr⟩ := memWf_cons.1 hw
    unfold memInsert
    split
    · next h => exact memWf_cons.2 ⟨hb, by simpa [memAbove] using h, hw⟩
    · split
      · next h => subst h; exact memWf_cons.2 ⟨hb, hx, hr⟩
      · exact memWf_cons.2 ⟨hd, memAbove_memInsert hx (by omega), ih hr⟩

theorem memAbove_memErase {lo a : Nat} {m : Memory} (hw : memWf m = true) (hm : memAbove lo m = true) :
    memAbove lo (memErase m a) = true := by
  cases m with
  | nil => rfl
  | cons p m =>
    obtain ⟨x, d⟩ := p
    obtain ⟨-, hx, -⟩ := memWf_cons.1 hw
    simp only [memAbove, decide_eq_true_eq] at hm
    unfold memErase
    split
    · exact memAbove_trans (by omega) hx
    · simpa [memAbove] using hm

theorem memWf_memErase {m : Memory} (hw : memWf m = true) (a : Nat) : memWf (memErase m a) = true := by
  induction m with
  | nil => rfl
  | cons p m ih =>
    obtain ⟨x, d⟩ := p
    obtain ⟨hd, hx, hr⟩ := memWf_cons.1 hw
    unfold memErase
    split
    · exact hr
    · exact memWf_cons.2 ⟨hd, memAbove_memErase hr hx, ih hr⟩

/-- A write keeps the canonical form. -/
theorem memWf_memWrite {m : Memory} (hw : memWf m = true) (a : Nat) (b : Byte) : memWf (memWrite m a b) = true := by
  unfold memWrite
  split
  · exact memWf_memErase hw a
  · next h => exact memWf_memInsert hw a h

theorem memWithin_memInsert {n a : Nat} {m : Memory} {b : Byte} (hm : memWithin n m = true) (ha : a < n) :
    memWithin n (memInsert m a b) = true := by
  induction m with
  | nil => simpa [memInsert, memWithin] using ha
  | cons p m ih =>
    obtain ⟨x, d⟩ := p
    simp only [memWithin, Bool.and_eq_true, decide_eq_true_eq] at hm
    unfold memInsert
    split
    · simp [memWithin, ha, hm.1, hm.2]
    · split
      · simp [memWithin, ha, hm.2]
      · simp [memWithin, hm.1, ih hm.2]

theorem memWithin_memErase {n : Nat} {m : Memory} (hm : memWithin n m = true) (a : Nat) :
    memWithin n (memErase m a) = true := by
  induction m with
  | nil => rfl
  | cons p m ih =>
    obtain ⟨x, d⟩ := p
    simp only [memWithin, Bool.and_eq_true, decide_eq_true_eq] at hm
    unfold memErase
    split
    · exact hm.2
    · simp [memWithin, hm.1, ih hm.2]

/-- A write inside the buffer keeps the bound. -/
theorem memWithin_memWrite {n a : Nat} {m : Memory} (hm : memWithin n m = true) (ha : a < n) (b : Byte) :
    memWithin n (memWrite m a b) = true := by
  unfold memWrite
  split
  · exact memWithin_memErase hm a
  · exact memWithin_memInsert hm ha

/-- A copy keeps the canonical form. -/
theorem memWf_memCopy {dst : Memory} (hw : memWf dst = true) (src : Memory) (n : Nat) :
    memWf (memCopy src n dst) = true := by
  induction n with
  | zero => exact hw
  | succ n ih => exact memWf_memWrite ih n _

/-- A copy of at most `lim` bytes keeps the bound `lim`. -/
theorem memWithin_memCopy {lim n : Nat} {dst : Memory} (hm : memWithin lim dst = true) (hn : n ≤ lim) (src : Memory) :
    memWithin lim (memCopy src n dst) = true := by
  induction n with
  | zero => exact hm
  | succ n ih => exact memWithin_memWrite (ih (by omega)) (by omega) _

/-- What a copied buffer reads as: the source below the length, the old contents at and above it (41_framer.md R207). -/
theorem memRead_memCopy {dst : Memory} (hw : memWf dst = true) (src : Memory) (n c : Nat) :
    memRead (memCopy src n dst) c = if c < n then memRead src c else memRead dst c := by
  induction n with
  | zero => simp [memCopy]
  | succ n ih =>
    rw [memCopy, memRead_memWrite (memWf_memCopy hw src n), ih]
    by_cases h : n = c
    · subst h; simp
    · by_cases h2 : c < n
      · simp [h, h2, Nat.lt_succ_of_lt h2]
      · have : ¬ c < n + 1 := by omega
        simp [h, h2, this]

/-- Both frame buffers of the reset state are canonical and inside their 128 bytes. -/
theorem memWf_reset :
    memWf State.reset.framer.fbuf = true ∧ memWf State.reset.rxc.buf = true
      ∧ memWithin maxFrame State.reset.framer.fbuf = true ∧ memWithin maxFrame State.reset.rxc.buf = true :=
  ⟨rfl, rfl, rfl, rfl⟩

end Sys2Proof.Machine
end

