-- ==== Sys2Proof/Laws/State.lean ====
section
/-! SUPPORT. One lemma for each field under each update of the state, so that no proof unfolds a record update. -/

namespace Sys2Proof.Machine

open Sys2Proof

/-! ### `goto` -/

@[simp] theorem State.goto_seq (s : State) (p : SeqPos) : (s.goto p).seq = p := rfl
@[simp] theorem State.goto_drainRet (s : State) (p : SeqPos) : (s.goto p).drainRet = s.drainRet := rfl
@[simp] theorem State.goto_drainFrames (s : State) (p : SeqPos) : (s.goto p).drainFrames = s.drainFrames := rfl
@[simp] theorem State.goto_tickPending (s : State) (p : SeqPos) : (s.goto p).tickPending = s.tickPending := rfl
@[simp] theorem State.goto_calDiv (s : State) (p : SeqPos) : (s.goto p).calDiv = s.calDiv := rfl
@[simp] theorem State.goto_cbKind (s : State) (p : SeqPos) : (s.goto p).cbKind = s.cbKind := rfl
@[simp] theorem State.goto_refC (s : State) (p : SeqPos) : (s.goto p).refC = s.refC := rfl
@[simp] theorem State.goto_refP (s : State) (p : SeqPos) : (s.goto p).refP = s.refP := rfl
@[simp] theorem State.goto_refPrev (s : State) (p : SeqPos) : (s.goto p).refPrev = s.refPrev := rfl
@[simp] theorem State.goto_meas (s : State) (p : SeqPos) : (s.goto p).meas = s.meas := rfl
@[simp] theorem State.goto_measPrev (s : State) (p : SeqPos) : (s.goto p).measPrev = s.measPrev := rfl
@[simp] theorem State.goto_mem (s : State) (p : SeqPos) : (s.goto p).mem = s.mem := rfl
@[simp] theorem State.goto_framer (s : State) (p : SeqPos) : (s.goto p).framer = s.framer := rfl
@[simp] theorem State.goto_rxc (s : State) (p : SeqPos) : (s.goto p).rxc = s.rxc := rfl
@[simp] theorem State.goto_rxFlag (s : State) (p : SeqPos) : (s.goto p).rxFlag = s.rxFlag := rfl
@[simp] theorem State.goto_rxEnabled (s : State) (p : SeqPos) : (s.goto p).rxEnabled = s.rxEnabled := rfl
@[simp] theorem State.goto_pid (s : State) (p : SeqPos) : (s.goto p).pid = s.pid := rfl
@[simp] theorem State.goto_enc (s : State) (p : SeqPos) : (s.goto p).enc = s.enc := rfl
@[simp] theorem State.goto_filt (s : State) (p : SeqPos) : (s.goto p).filt = s.filt := rfl
@[simp] theorem State.goto_drive (s : State) (p : SeqPos) : (s.goto p).drive = s.drive := rfl
@[simp] theorem State.goto_cal (s : State) (p : SeqPos) : (s.goto p).cal = s.cal := rfl
@[simp] theorem State.goto_ports (s : State) (p : SeqPos) : (s.goto p).ports = s.ports := rfl
@[simp] theorem State.goto_trace (s : State) (p : SeqPos) : (s.goto p).trace = s.trace := rfl
@[simp] theorem State.goto_txns (s : State) (p : SeqPos) : (s.goto p).txns = s.txns := rfl
@[simp] theorem State.goto_cfg (s : State) (p : SeqPos) : (s.goto p).cfg = s.cfg := rfl

/-! ### `gotoCode` -/

@[simp] theorem State.gotoCode_seq_code (s : State) (c : SeqCode) : (s.gotoCode c).seq.code = c := rfl
@[simp] theorem State.gotoCode_seq_idx (s : State) (c : SeqCode) : (s.gotoCode c).seq.idx = s.seq.idx := rfl
@[simp] theorem State.gotoCode_drainRet (s : State) (c : SeqCode) : (s.gotoCode c).drainRet = s.drainRet := rfl
@[simp] theorem State.gotoCode_drainFrames (s : State) (c : SeqCode) : (s.gotoCode c).drainFrames = s.drainFrames := rfl
@[simp] theorem State.gotoCode_tickPending (s : State) (c : SeqCode) : (s.gotoCode c).tickPending = s.tickPending := rfl
@[simp] theorem State.gotoCode_calDiv (s : State) (c : SeqCode) : (s.gotoCode c).calDiv = s.calDiv := rfl
@[simp] theorem State.gotoCode_cbKind (s : State) (c : SeqCode) : (s.gotoCode c).cbKind = s.cbKind := rfl
@[simp] theorem State.gotoCode_refC (s : State) (c : SeqCode) : (s.gotoCode c).refC = s.refC := rfl
@[simp] theorem State.gotoCode_refP (s : State) (c : SeqCode) : (s.gotoCode c).refP = s.refP := rfl
@[simp] theorem State.gotoCode_refPrev (s : State) (c : SeqCode) : (s.gotoCode c).refPrev = s.refPrev := rfl
@[simp] theorem State.gotoCode_meas (s : State) (c : SeqCode) : (s.gotoCode c).meas = s.meas := rfl
@[simp] theorem State.gotoCode_measPrev (s : State) (c : SeqCode) : (s.gotoCode c).measPrev = s.measPrev := rfl
@[simp] theorem State.gotoCode_mem (s : State) (c : SeqCode) : (s.gotoCode c).mem = s.mem := rfl
@[simp] theorem State.gotoCode_framer (s : State) (c : SeqCode) : (s.gotoCode c).framer = s.framer := rfl
@[simp] theorem State.gotoCode_rxc (s : State) (c : SeqCode) : (s.gotoCode c).rxc = s.rxc := rfl
@[simp] theorem State.gotoCode_rxFlag (s : State) (c : SeqCode) : (s.gotoCode c).rxFlag = s.rxFlag := rfl
@[simp] theorem State.gotoCode_rxEnabled (s : State) (c : SeqCode) : (s.gotoCode c).rxEnabled = s.rxEnabled := rfl
@[simp] theorem State.gotoCode_pid (s : State) (c : SeqCode) : (s.gotoCode c).pid = s.pid := rfl
@[simp] theorem State.gotoCode_enc (s : State) (c : SeqCode) : (s.gotoCode c).enc = s.enc := rfl
@[simp] theorem State.gotoCode_filt (s : State) (c : SeqCode) : (s.gotoCode c).filt = s.filt := rfl
@[simp] theorem State.gotoCode_drive (s : State) (c : SeqCode) : (s.gotoCode c).drive = s.drive := rfl
@[simp] theorem State.gotoCode_cal (s : State) (c : SeqCode) : (s.gotoCode c).cal = s.cal := rfl
@[simp] theorem State.gotoCode_ports (s : State) (c : SeqCode) : (s.gotoCode c).ports = s.ports := rfl
@[simp] theorem State.gotoCode_trace (s : State) (c : SeqCode) : (s.gotoCode c).trace = s.trace := rfl
@[simp] theorem State.gotoCode_txns (s : State) (c : SeqCode) : (s.gotoCode c).txns = s.txns := rfl
@[simp] theorem State.gotoCode_cfg (s : State) (c : SeqCode) : (s.gotoCode c).cfg = s.cfg := rfl

/-! ### `emit` -/

@[simp] theorem State.emit_seq (s : State) (e : Event) : (s.emit e).seq = s.seq := rfl
@[simp] theorem State.emit_drainRet (s : State) (e : Event) : (s.emit e).drainRet = s.drainRet := rfl
@[simp] theorem State.emit_drainFrames (s : State) (e : Event) : (s.emit e).drainFrames = s.drainFrames := rfl
@[simp] theorem State.emit_tickPending (s : State) (e : Event) : (s.emit e).tickPending = s.tickPending := rfl
@[simp] theorem State.emit_calDiv (s : State) (e : Event) : (s.emit e).calDiv = s.calDiv := rfl
@[simp] theorem State.emit_cbKind (s : State) (e : Event) : (s.emit e).cbKind = s.cbKind := rfl
@[simp] theorem State.emit_refC (s : State) (e : Event) : (s.emit e).refC = s.refC := rfl
@[simp] theorem State.emit_refP (s : State) (e : Event) : (s.emit e).refP = s.refP := rfl
@[simp] theorem State.emit_refPrev (s : State) (e : Event) : (s.emit e).refPrev = s.refPrev := rfl
@[simp] theorem State.emit_meas (s : State) (e : Event) : (s.emit e).meas = s.meas := rfl
@[simp] theorem State.emit_measPrev (s : State) (e : Event) : (s.emit e).measPrev = s.measPrev := rfl
@[simp] theorem State.emit_mem (s : State) (e : Event) : (s.emit e).mem = s.mem := rfl
@[simp] theorem State.emit_framer (s : State) (e : Event) : (s.emit e).framer = s.framer := rfl
@[simp] theorem State.emit_rxc (s : State) (e : Event) : (s.emit e).rxc = s.rxc := rfl
@[simp] theorem State.emit_rxFlag (s : State) (e : Event) : (s.emit e).rxFlag = s.rxFlag := rfl
@[simp] theorem State.emit_rxEnabled (s : State) (e : Event) : (s.emit e).rxEnabled = s.rxEnabled := rfl
@[simp] theorem State.emit_pid (s : State) (e : Event) : (s.emit e).pid = s.pid := rfl
@[simp] theorem State.emit_enc (s : State) (e : Event) : (s.emit e).enc = s.enc := rfl
@[simp] theorem State.emit_filt (s : State) (e : Event) : (s.emit e).filt = s.filt := rfl
@[simp] theorem State.emit_drive (s : State) (e : Event) : (s.emit e).drive = s.drive := rfl
@[simp] theorem State.emit_cal (s : State) (e : Event) : (s.emit e).cal = s.cal := rfl
@[simp] theorem State.emit_ports (s : State) (e : Event) : (s.emit e).ports = s.ports := rfl
@[simp] theorem State.emit_trace (s : State) (e : Event) : (s.emit e).trace = s.trace ++ [e] := rfl
@[simp] theorem State.emit_txns (s : State) (e : Event) : (s.emit e).txns = s.txns := rfl
@[simp] theorem State.emit_cfg (s : State) (e : Event) : (s.emit e).cfg = s.cfg := rfl

/-! ### `putRxFlag` -/

@[simp] theorem State.putRxFlag_seq (s : State) (v : Bool) : (s.putRxFlag v).seq = s.seq := rfl
@[simp] theorem State.putRxFlag_drainRet (s : State) (v : Bool) : (s.putRxFlag v).drainRet = s.drainRet := rfl
@[simp] theorem State.putRxFlag_drainFrames (s : State) (v : Bool) : (s.putRxFlag v).drainFrames = s.drainFrames := rfl
@[simp] theorem State.putRxFlag_tickPending (s : State) (v : Bool) : (s.putRxFlag v).tickPending = s.tickPending := rfl
@[simp] theorem State.putRxFlag_calDiv (s : State) (v : Bool) : (s.putRxFlag v).calDiv = s.calDiv := rfl
@[simp] theorem State.putRxFlag_cbKind (s : State) (v : Bool) : (s.putRxFlag v).cbKind = s.cbKind := rfl
@[simp] theorem State.putRxFlag_refC (s : State) (v : Bool) : (s.putRxFlag v).refC = s.refC := rfl
@[simp] theorem State.putRxFlag_refP (s : State) (v : Bool) : (s.putRxFlag v).refP = s.refP := rfl
@[simp] theorem State.putRxFlag_refPrev (s : State) (v : Bool) : (s.putRxFlag v).refPrev = s.refPrev := rfl
@[simp] theorem State.putRxFlag_meas (s : State) (v : Bool) : (s.putRxFlag v).meas = s.meas := rfl
@[simp] theorem State.putRxFlag_measPrev (s : State) (v : Bool) : (s.putRxFlag v).measPrev = s.measPrev := rfl
@[simp] theorem State.putRxFlag_mem (s : State) (v : Bool) : (s.putRxFlag v).mem = s.mem := rfl
@[simp] theorem State.putRxFlag_framer (s : State) (v : Bool) : (s.putRxFlag v).framer = s.framer := rfl
@[simp] theorem State.putRxFlag_rxc (s : State) (v : Bool) : (s.putRxFlag v).rxc = s.rxc := rfl
@[simp] theorem State.putRxFlag_rxFlag (s : State) (v : Bool) : (s.putRxFlag v).rxFlag = v := rfl
@[simp] theorem State.putRxFlag_rxEnabled (s : State) (v : Bool) : (s.putRxFlag v).rxEnabled = s.rxEnabled := rfl
@[simp] theorem State.putRxFlag_pid (s : State) (v : Bool) : (s.putRxFlag v).pid = s.pid := rfl
@[simp] theorem State.putRxFlag_enc (s : State) (v : Bool) : (s.putRxFlag v).enc = s.enc := rfl
@[simp] theorem State.putRxFlag_filt (s : State) (v : Bool) : (s.putRxFlag v).filt = s.filt := rfl
@[simp] theorem State.putRxFlag_drive (s : State) (v : Bool) : (s.putRxFlag v).drive = s.drive := rfl
@[simp] theorem State.putRxFlag_cal (s : State) (v : Bool) : (s.putRxFlag v).cal = s.cal := rfl
@[simp] theorem State.putRxFlag_ports (s : State) (v : Bool) : (s.putRxFlag v).ports = s.ports := rfl
@[simp] theorem State.putRxFlag_trace (s : State) (v : Bool) : (s.putRxFlag v).trace = s.trace := rfl
@[simp] theorem State.putRxFlag_txns (s : State) (v : Bool) : (s.putRxFlag v).txns = s.txns := rfl
@[simp] theorem State.putRxFlag_cfg (s : State) (v : Bool) : (s.putRxFlag v).cfg = s.cfg := rfl

/-! ### `putRxEnabled` -/

@[simp] theorem State.putRxEnabled_seq (s : State) (v : Bool) : (s.putRxEnabled v).seq = s.seq := rfl
@[simp] theorem State.putRxEnabled_drainRet (s : State) (v : Bool) : (s.putRxEnabled v).drainRet = s.drainRet := rfl
@[simp] theorem State.putRxEnabled_drainFrames (s : State) (v : Bool) : (s.putRxEnabled v).drainFrames = s.drainFrames := rfl
@[simp] theorem State.putRxEnabled_tickPending (s : State) (v : Bool) : (s.putRxEnabled v).tickPending = s.tickPending := rfl
@[simp] theorem State.putRxEnabled_calDiv (s : State) (v : Bool) : (s.putRxEnabled v).calDiv = s.calDiv := rfl
@[simp] theorem State.putRxEnabled_cbKind (s : State) (v : Bool) : (s.putRxEnabled v).cbKind = s.cbKind := rfl
@[simp] theorem State.putRxEnabled_refC (s : State) (v : Bool) : (s.putRxEnabled v).refC = s.refC := rfl
@[simp] theorem State.putRxEnabled_refP (s : State) (v : Bool) : (s.putRxEnabled v).refP = s.refP := rfl
@[simp] theorem State.putRxEnabled_refPrev (s : State) (v : Bool) : (s.putRxEnabled v).refPrev = s.refPrev := rfl
@[simp] theorem State.putRxEnabled_meas (s : State) (v : Bool) : (s.putRxEnabled v).meas = s.meas := rfl
@[simp] theorem State.putRxEnabled_measPrev (s : State) (v : Bool) : (s.putRxEnabled v).measPrev = s.measPrev := rfl
@[simp] theorem State.putRxEnabled_mem (s : State) (v : Bool) : (s.putRxEnabled v).mem = s.mem := rfl
@[simp] theorem State.putRxEnabled_framer (s : State) (v : Bool) : (s.putRxEnabled v).framer = s.framer := rfl
@[simp] theorem State.putRxEnabled_rxc (s : State) (v : Bool) : (s.putRxEnabled v).rxc = s.rxc := rfl
@[simp] theorem State.putRxEnabled_rxFlag (s : State) (v : Bool) : (s.putRxEnabled v).rxFlag = s.rxFlag := rfl
@[simp] theorem State.putRxEnabled_rxEnabled (s : State) (v : Bool) : (s.putRxEnabled v).rxEnabled = v := rfl
@[simp] theorem State.putRxEnabled_pid (s : State) (v : Bool) : (s.putRxEnabled v).pid = s.pid := rfl
@[simp] theorem State.putRxEnabled_enc (s : State) (v : Bool) : (s.putRxEnabled v).enc = s.enc := rfl
@[simp] theorem State.putRxEnabled_filt (s : State) (v : Bool) : (s.putRxEnabled v).filt = s.filt := rfl
@[simp] theorem State.putRxEnabled_drive (s : State) (v : Bool) : (s.putRxEnabled v).drive = s.drive := rfl
@[simp] theorem State.putRxEnabled_cal (s : State) (v : Bool) : (s.putRxEnabled v).cal = s.cal := rfl
@[simp] theorem State.putRxEnabled_ports (s : State) (v : Bool) : (s.putRxEnabled v).ports = s.ports := rfl
@[simp] theorem State.putRxEnabled_trace (s : State) (v : Bool) : (s.putRxEnabled v).trace = s.trace := rfl
@[simp] theorem State.putRxEnabled_txns (s : State) (v : Bool) : (s.putRxEnabled v).txns = s.txns := rfl
@[simp] theorem State.putRxEnabled_cfg (s : State) (v : Bool) : (s.putRxEnabled v).cfg = s.cfg := rfl

/-! ### `putTickPending` -/

@[simp] theorem State.putTickPending_seq (s : State) (v : Bool) : (s.putTickPending v).seq = s.seq := rfl
@[simp] theorem State.putTickPending_drainRet (s : State) (v : Bool) : (s.putTickPending v).drainRet = s.drainRet := rfl
@[simp] theorem State.putTickPending_drainFrames (s : State) (v : Bool) : (s.putTickPending v).drainFrames = s.drainFrames := rfl
@[simp] theorem State.putTickPending_tickPending (s : State) (v : Bool) : (s.putTickPending v).tickPending = v := rfl
@[simp] theorem State.putTickPending_calDiv (s : State) (v : Bool) : (s.putTickPending v).calDiv = s.calDiv := rfl
@[simp] theorem State.putTickPending_cbKind (s : State) (v : Bool) : (s.putTickPending v).cbKind = s.cbKind := rfl
@[simp] theorem State.putTickPending_refC (s : State) (v : Bool) : (s.putTickPending v).refC = s.refC := rfl
@[simp] theorem State.putTickPending_refP (s : State) (v : Bool) : (s.putTickPending v).refP = s.refP := rfl
@[simp] theorem State.putTickPending_refPrev (s : State) (v : Bool) : (s.putTickPending v).refPrev = s.refPrev := rfl
@[simp] theorem State.putTickPending_meas (s : State) (v : Bool) : (s.putTickPending v).meas = s.meas := rfl
@[simp] theorem State.putTickPending_measPrev (s : State) (v : Bool) : (s.putTickPending v).measPrev = s.measPrev := rfl
@[simp] theorem State.putTickPending_mem (s : State) (v : Bool) : (s.putTickPending v).mem = s.mem := rfl
@[simp] theorem State.putTickPending_framer (s : State) (v : Bool) : (s.putTickPending v).framer = s.framer := rfl
@[simp] theorem State.putTickPending_rxc (s : State) (v : Bool) : (s.putTickPending v).rxc = s.rxc := rfl
@[simp] theorem State.putTickPending_rxFlag (s : State) (v : Bool) : (s.putTickPending v).rxFlag = s.rxFlag := rfl
@[simp] theorem State.putTickPending_rxEnabled (s : State) (v : Bool) : (s.putTickPending v).rxEnabled = s.rxEnabled := rfl
@[simp] theorem State.putTickPending_pid (s : State) (v : Bool) : (s.putTickPending v).pid = s.pid := rfl
@[simp] theorem State.putTickPending_enc (s : State) (v : Bool) : (s.putTickPending v).enc = s.enc := rfl
@[simp] theorem State.putTickPending_filt (s : State) (v : Bool) : (s.putTickPending v).filt = s.filt := rfl
@[simp] theorem State.putTickPending_drive (s : State) (v : Bool) : (s.putTickPending v).drive = s.drive := rfl
@[simp] theorem State.putTickPending_cal (s : State) (v : Bool) : (s.putTickPending v).cal = s.cal := rfl
@[simp] theorem State.putTickPending_ports (s : State) (v : Bool) : (s.putTickPending v).ports = s.ports := rfl
@[simp] theorem State.putTickPending_trace (s : State) (v : Bool) : (s.putTickPending v).trace = s.trace := rfl
@[simp] theorem State.putTickPending_txns (s : State) (v : Bool) : (s.putTickPending v).txns = s.txns := rfl
@[simp] theorem State.putTickPending_cfg (s : State) (v : Bool) : (s.putTickPending v).cfg = s.cfg := rfl

/-! ### `putAdcReady` -/

@[simp] theorem State.putAdcReady_seq (s : State) (v : Bool) : (s.putAdcReady v).seq = s.seq := rfl
@[simp] theorem State.putAdcReady_drainRet (s : State) (v : Bool) : (s.putAdcReady v).drainRet = s.drainRet := rfl
@[simp] theorem State.putAdcReady_drainFrames (s : State) (v : Bool) : (s.putAdcReady v).drainFrames = s.drainFrames := rfl
@[simp] theorem State.putAdcReady_tickPending (s : State) (v : Bool) : (s.putAdcReady v).tickPending = s.tickPending := rfl
@[simp] theorem State.putAdcReady_calDiv (s : State) (v : Bool) : (s.putAdcReady v).calDiv = s.calDiv := rfl
@[simp] theorem State.putAdcReady_cbKind (s : State) (v : Bool) : (s.putAdcReady v).cbKind = s.cbKind := rfl
@[simp] theorem State.putAdcReady_refC (s : State) (v : Bool) : (s.putAdcReady v).refC = s.refC := rfl
@[simp] theorem State.putAdcReady_refP (s : State) (v : Bool) : (s.putAdcReady v).refP = s.refP := rfl
@[simp] theorem State.putAdcReady_refPrev (s : State) (v : Bool) : (s.putAdcReady v).refPrev = s.refPrev := rfl
@[simp] theorem State.putAdcReady_meas (s : State) (v : Bool) : (s.putAdcReady v).meas = s.meas := rfl
@[simp] theorem State.putAdcReady_measPrev (s : State) (v : Bool) : (s.putAdcReady v).measPrev = s.measPrev := rfl
@[simp] theorem State.putAdcReady_mem (s : State) (v : Bool) : (s.putAdcReady v).mem = s.mem := rfl
@[simp] theorem State.putAdcReady_framer (s : State) (v : Bool) : (s.putAdcReady v).framer = s.framer := rfl
@[simp] theorem State.putAdcReady_rxc (s : State) (v : Bool) : (s.putAdcReady v).rxc = s.rxc := rfl
@[simp] theorem State.putAdcReady_rxFlag (s : State) (v : Bool) : (s.putAdcReady v).rxFlag = s.rxFlag := rfl
@[simp] theorem State.putAdcReady_rxEnabled (s : State) (v : Bool) : (s.putAdcReady v).rxEnabled = s.rxEnabled := rfl
@[simp] theorem State.putAdcReady_pid (s : State) (v : Bool) : (s.putAdcReady v).pid = s.pid := rfl
@[simp] theorem State.putAdcReady_enc (s : State) (v : Bool) : (s.putAdcReady v).enc = s.enc := rfl
@[simp] theorem State.putAdcReady_filt (s : State) (v : Bool) : (s.putAdcReady v).filt = s.filt := rfl
@[simp] theorem State.putAdcReady_drive (s : State) (v : Bool) : (s.putAdcReady v).drive = s.drive := rfl
@[simp] theorem State.putAdcReady_cal (s : State) (v : Bool) : (s.putAdcReady v).cal = s.cal := rfl
@[simp] theorem State.putAdcReady_ports_encWord (s : State) (v : Bool) : (s.putAdcReady v).ports.encWord = s.ports.encWord := rfl
@[simp] theorem State.putAdcReady_ports_adcRaw (s : State) (v : Bool) : (s.putAdcReady v).ports.adcRaw = s.ports.adcRaw := rfl
@[simp] theorem State.putAdcReady_ports_adcReady (s : State) (v : Bool) : (s.putAdcReady v).ports.adcReady = v := rfl
@[simp] theorem State.putAdcReady_ports_flowctl (s : State) (v : Bool) : (s.putAdcReady v).ports.flowctl = s.ports.flowctl := rfl
@[simp] theorem State.putAdcReady_ports_rxFifo (s : State) (v : Bool) : (s.putAdcReady v).ports.rxFifo = s.ports.rxFifo := rfl
@[simp] theorem State.putAdcReady_trace (s : State) (v : Bool) : (s.putAdcReady v).trace = s.trace := rfl
@[simp] theorem State.putAdcReady_txns (s : State) (v : Bool) : (s.putAdcReady v).txns = s.txns := rfl
@[simp] theorem State.putAdcReady_cfg (s : State) (v : Bool) : (s.putAdcReady v).cfg = s.cfg := rfl

/-! ### `putRxcReady` -/

@[simp] theorem State.putRxcReady_seq (s : State) (v : Bool) : (s.putRxcReady v).seq = s.seq := rfl
@[simp] theorem State.putRxcReady_drainRet (s : State) (v : Bool) : (s.putRxcReady v).drainRet = s.drainRet := rfl
@[simp] theorem State.putRxcReady_drainFrames (s : State) (v : Bool) : (s.putRxcReady v).drainFrames = s.drainFrames := rfl
@[simp] theorem State.putRxcReady_tickPending (s : State) (v : Bool) : (s.putRxcReady v).tickPending = s.tickPending := rfl
@[simp] theorem State.putRxcReady_calDiv (s : State) (v : Bool) : (s.putRxcReady v).calDiv = s.calDiv := rfl
@[simp] theorem State.putRxcReady_cbKind (s : State) (v : Bool) : (s.putRxcReady v).cbKind = s.cbKind := rfl
@[simp] theorem State.putRxcReady_refC (s : State) (v : Bool) : (s.putRxcReady v).refC = s.refC := rfl
@[simp] theorem State.putRxcReady_refP (s : State) (v : Bool) : (s.putRxcReady v).refP = s.refP := rfl
@[simp] theorem State.putRxcReady_refPrev (s : State) (v : Bool) : (s.putRxcReady v).refPrev = s.refPrev := rfl
@[simp] theorem State.putRxcReady_meas (s : State) (v : Bool) : (s.putRxcReady v).meas = s.meas := rfl
@[simp] theorem State.putRxcReady_measPrev (s : State) (v : Bool) : (s.putRxcReady v).measPrev = s.measPrev := rfl
@[simp] theorem State.putRxcReady_mem (s : State) (v : Bool) : (s.putRxcReady v).mem = s.mem := rfl
@[simp] theorem State.putRxcReady_framer (s : State) (v : Bool) : (s.putRxcReady v).framer = s.framer := rfl
@[simp] theorem State.putRxcReady_rxc_buf (s : State) (v : Bool) : (s.putRxcReady v).rxc.buf = s.rxc.buf := rfl
@[simp] theorem State.putRxcReady_rxc_len (s : State) (v : Bool) : (s.putRxcReady v).rxc.len = s.rxc.len := rfl
@[simp] theorem State.putRxcReady_rxc_ready (s : State) (v : Bool) : (s.putRxcReady v).rxc.ready = v := rfl
@[simp] theorem State.putRxcReady_rxFlag (s : State) (v : Bool) : (s.putRxcReady v).rxFlag = s.rxFlag := rfl
@[simp] theorem State.putRxcReady_rxEnabled (s : State) (v : Bool) : (s.putRxcReady v).rxEnabled = s.rxEnabled := rfl
@[simp] theorem State.putRxcReady_pid (s : State) (v : Bool) : (s.putRxcReady v).pid = s.pid := rfl
@[simp] theorem State.putRxcReady_enc (s : State) (v : Bool) : (s.putRxcReady v).enc = s.enc := rfl
@[simp] theorem State.putRxcReady_filt (s : State) (v : Bool) : (s.putRxcReady v).filt = s.filt := rfl
@[simp] theorem State.putRxcReady_drive (s : State) (v : Bool) : (s.putRxcReady v).drive = s.drive := rfl
@[simp] theorem State.putRxcReady_cal (s : State) (v : Bool) : (s.putRxcReady v).cal = s.cal := rfl
@[simp] theorem State.putRxcReady_ports (s : State) (v : Bool) : (s.putRxcReady v).ports = s.ports := rfl
@[simp] theorem State.putRxcReady_trace (s : State) (v : Bool) : (s.putRxcReady v).trace = s.trace := rfl
@[simp] theorem State.putRxcReady_txns (s : State) (v : Bool) : (s.putRxcReady v).txns = s.txns := rfl
@[simp] theorem State.putRxcReady_cfg (s : State) (v : Bool) : (s.putRxcReady v).cfg = s.cfg := rfl

/-! ### `putResetLast` -/

@[simp] theorem State.putResetLast_seq (s : State) (v : Bool) : (s.putResetLast v).seq = s.seq := rfl
@[simp] theorem State.putResetLast_drainRet (s : State) (v : Bool) : (s.putResetLast v).drainRet = s.drainRet := rfl
@[simp] theorem State.putResetLast_drainFrames (s : State) (v : Bool) : (s.putResetLast v).drainFrames = s.drainFrames := rfl
@[simp] theorem State.putResetLast_tickPending (s : State) (v : Bool) : (s.putResetLast v).tickPending = s.tickPending := rfl
@[simp] theorem State.putResetLast_calDiv (s : State) (v : Bool) : (s.putResetLast v).calDiv = s.calDiv := rfl
@[simp] theorem State.putResetLast_cbKind (s : State) (v : Bool) : (s.putResetLast v).cbKind = s.cbKind := rfl
@[simp] theorem State.putResetLast_refC (s : State) (v : Bool) : (s.putResetLast v).refC = s.refC := rfl
@[simp] theorem State.putResetLast_refP (s : State) (v : Bool) : (s.putResetLast v).refP = s.refP := rfl
@[simp] theorem State.putResetLast_refPrev (s : State) (v : Bool) : (s.putResetLast v).refPrev = s.refPrev := rfl
@[simp] theorem State.putResetLast_meas (s : State) (v : Bool) : (s.putResetLast v).meas = s.meas := rfl
@[simp] theorem State.putResetLast_measPrev (s : State) (v : Bool) : (s.putResetLast v).measPrev = s.measPrev := rfl
@[simp] theorem State.putResetLast_mem (s : State) (v : Bool) : (s.putResetLast v).mem = s.mem := rfl
@[simp] theorem State.putResetLast_framer (s : State) (v : Bool) : (s.putResetLast v).framer = s.framer := rfl
@[simp] theorem State.putResetLast_rxc (s : State) (v : Bool) : (s.putResetLast v).rxc = s.rxc := rfl
@[simp] theorem State.putResetLast_rxFlag (s : State) (v : Bool) : (s.putResetLast v).rxFlag = s.rxFlag := rfl
@[simp] theorem State.putResetLast_rxEnabled (s : State) (v : Bool) : (s.putResetLast v).rxEnabled = s.rxEnabled := rfl
@[simp] theorem State.putResetLast_pid (s : State) (v : Bool) : (s.putResetLast v).pid = s.pid := rfl
@[simp] theorem State.putResetLast_enc_last (s : State) (v : Bool) : (s.putResetLast v).enc.last = s.enc.last := rfl
@[simp] theorem State.putResetLast_enc_noise (s : State) (v : Bool) : (s.putResetLast v).enc.noise = s.enc.noise := rfl
@[simp] theorem State.putResetLast_enc_resetLast (s : State) (v : Bool) : (s.putResetLast v).enc.resetLast = v := rfl
@[simp] theorem State.putResetLast_filt (s : State) (v : Bool) : (s.putResetLast v).filt = s.filt := rfl
@[simp] theorem State.putResetLast_drive (s : State) (v : Bool) : (s.putResetLast v).drive = s.drive := rfl
@[simp] theorem State.putResetLast_cal (s : State) (v : Bool) : (s.putResetLast v).cal = s.cal := rfl
@[simp] theorem State.putResetLast_ports (s : State) (v : Bool) : (s.putResetLast v).ports = s.ports := rfl
@[simp] theorem State.putResetLast_trace (s : State) (v : Bool) : (s.putResetLast v).trace = s.trace := rfl
@[simp] theorem State.putResetLast_txns (s : State) (v : Bool) : (s.putResetLast v).txns = s.txns := rfl
@[simp] theorem State.putResetLast_cfg (s : State) (v : Bool) : (s.putResetLast v).cfg = s.cfg := rfl

/-! ### `putForMe` -/

@[simp] theorem State.putForMe_seq (s : State) (v : Bool) : (s.putForMe v).seq = s.seq := rfl
@[simp] theorem State.putForMe_drainRet (s : State) (v : Bool) : (s.putForMe v).drainRet = s.drainRet := rfl
@[simp] theorem State.putForMe_drainFrames (s : State) (v : Bool) : (s.putForMe v).drainFrames = s.drainFrames := rfl
@[simp] theorem State.putForMe_tickPending (s : State) (v : Bool) : (s.putForMe v).tickPending = s.tickPending := rfl
@[simp] theorem State.putForMe_calDiv (s : State) (v : Bool) : (s.putForMe v).calDiv = s.calDiv := rfl
@[simp] theorem State.putForMe_cbKind (s : State) (v : Bool) : (s.putForMe v).cbKind = s.cbKind := rfl
@[simp] theorem State.putForMe_refC (s : State) (v : Bool) : (s.putForMe v).refC = s.refC := rfl
@[simp] theorem State.putForMe_refP (s : State) (v : Bool) : (s.putForMe v).refP = s.refP := rfl
@[simp] theorem State.putForMe_refPrev (s : State) (v : Bool) : (s.putForMe v).refPrev = s.refPrev := rfl
@[simp] theorem State.putForMe_meas (s : State) (v : Bool) : (s.putForMe v).meas = s.meas := rfl
@[simp] theorem State.putForMe_measPrev (s : State) (v : Bool) : (s.putForMe v).measPrev = s.measPrev := rfl
@[simp] theorem State.putForMe_mem (s : State) (v : Bool) : (s.putForMe v).mem = s.mem := rfl
@[simp] theorem State.putForMe_framer_fstate (s : State) (v : Bool) : (s.putForMe v).framer.fstate = s.framer.fstate := rfl
@[simp] theorem State.putForMe_framer_win (s : State) (v : Bool) : (s.putForMe v).framer.win = s.framer.win := rfl
@[simp] theorem State.putForMe_framer_forMe (s : State) (v : Bool) : (s.putForMe v).framer.forMe = v := rfl
@[simp] theorem State.putForMe_framer_flen (s : State) (v : Bool) : (s.putForMe v).framer.flen = s.framer.flen := rfl
@[simp] theorem State.putForMe_framer_fidx (s : State) (v : Bool) : (s.putForMe v).framer.fidx = s.framer.fidx := rfl
@[simp] theorem State.putForMe_framer_fbuf (s : State) (v : Bool) : (s.putForMe v).framer.fbuf = s.framer.fbuf := rfl
@[simp] theorem State.putForMe_framer_unloadCnt (s : State) (v : Bool) : (s.putForMe v).framer.unloadCnt = s.framer.unloadCnt := rfl
@[simp] theorem State.putForMe_rxc (s : State) (v : Bool) : (s.putForMe v).rxc = s.rxc := rfl
@[simp] theorem State.putForMe_rxFlag (s : State) (v : Bool) : (s.putForMe v).rxFlag = s.rxFlag := rfl
@[simp] theorem State.putForMe_rxEnabled (s : State) (v : Bool) : (s.putForMe v).rxEnabled = s.rxEnabled := rfl
@[simp] theorem State.putForMe_pid (s : State) (v : Bool) : (s.putForMe v).pid = s.pid := rfl
@[simp] theorem State.putForMe_enc (s : State) (v : Bool) : (s.putForMe v).enc = s.enc := rfl
@[simp] theorem State.putForMe_filt (s : State) (v : Bool) : (s.putForMe v).filt = s.filt := rfl
@[simp] theorem State.putForMe_drive (s : State) (v : Bool) : (s.putForMe v).drive = s.drive := rfl
@[simp] theorem State.putForMe_cal (s : State) (v : Bool) : (s.putForMe v).cal = s.cal := rfl
@[simp] theorem State.putForMe_ports (s : State) (v : Bool) : (s.putForMe v).ports = s.ports := rfl
@[simp] theorem State.putForMe_trace (s : State) (v : Bool) : (s.putForMe v).trace = s.trace := rfl
@[simp] theorem State.putForMe_txns (s : State) (v : Bool) : (s.putForMe v).txns = s.txns := rfl
@[simp] theorem State.putForMe_cfg (s : State) (v : Bool) : (s.putForMe v).cfg = s.cfg := rfl

end Sys2Proof.Machine
end

