-- ==== Sys2Proof/Laws/Ops.lean ====
section
/-! SUPPORT. What each shared operation of Machine/Ops.lean can do, said once. -/

namespace Sys2Proof.Machine

open Sys2Proof

theorem hostMayAct_iff (s : State) : hostMayAct s = true ↔ s.seq.code = .idle ∨ s.seq.code = .callback := by
  unfold hostMayAct
  generalize s.seq.code = c
  cases c <;> simp

/-- The three holds (60_exceptions.md R395). -/
theorem atHold_iff (s : State) :
    atHold s = true ↔
      (s.seq.code = .idle ∧ s.tickPending = false)
      ∨ (s.seq.code = .adcWait ∧ s.ports.adcReady = false ∧ ¬(s.rxEnabled = true ∧ s.rxFlag = true))
      ∨ s.seq.code = .callback := by
  unfold atHold
  generalize s.seq.code = c
  generalize s.rxEnabled = e
  cases c <;> cases e <;> simp

/-- A drain entry: the flag cleared and the continuation saved, or straight to the continuation (41_framer.md R214). -/
theorem enterDrain_eq (p : SeqPos) (s : State) :
    enterDrain p s =
      if s.rxEnabled = true then
        { s with rxFlag := false, drainFrames := 0, drainRet := p, seq := { s.seq with code := .drain } }
      else { s with seq := p } := rfl

/-- A poll: a drain entry with the flag set and reception enabled, else the continuation (41_framer.md R215). -/
theorem poll_eq (p : SeqPos) (s : State) :
    poll p s =
      if s.rxEnabled = true ∧ s.rxFlag = true then
        { s with rxFlag := false, drainFrames := 0, drainRet := p, seq := { s.seq with code := .drain } }
      else { s with seq := p } := by
  unfold poll
  by_cases h1 : s.rxEnabled = true <;> by_cases h2 : s.rxFlag = true <;>
    simp [h1, h2, enterDrain, State.putRxFlag, State.goto]

theorem fifoPop_nil {s : State} (h : s.ports.rxFifo = []) : s.fifoPop = none := by
  simp [State.fifoPop, h]

theorem fifoPop_cons {s : State} {b : Byte} {rest : List Byte} (h : s.ports.rxFifo = b :: rest) :
    s.fifoPop = some (b, { s with ports := { s.ports with rxFifo := rest } }) := by
  simp [State.fifoPop, h]

/-- What a pop leaves: the oldest byte is gone and nothing else changes (20_memory.md R106). -/
theorem fifoPop_spec {s t : State} {b : Byte} (h : s.fifoPop = some (b, t)) :
    ∃ rest, s.ports.rxFifo = b :: rest ∧ t = { s with ports := { s.ports with rxFifo := rest } } := by
  unfold State.fifoPop at h
  split at h
  · cases h
  · next c rest hf =>
    simp only [Option.some.injEq, Prod.mk.injEq] at h
    obtain ⟨rfl, rfl⟩ := h
    exact ⟨rest, hf, rfl⟩

/-- A push appends inside the depth and is lost beyond it (47_host_interface.md R368). -/
theorem fifoPush_eq (s : State) (b : Byte) :
    s.fifoPush b =
      if s.ports.rxFifo.length < s.cfg.rxFifoDepth then
        { s with ports := { s.ports with rxFifo := s.ports.rxFifo ++ [b] } }
      else s := rfl

theorem enterTick_eq (s : State) :
    enterTick s = { s with tickPending := false, seq := { s.seq with code := .adcStart } } := rfl

theorem endTick_eq (s : State) :
    endTick s = { s with trace := s.trace ++ [.timerReset], seq := { s.seq with code := .idle } } := rfl

theorem drainEnd_eq (s : State) : drainEnd s = { s with seq := s.drainRet } := rfl

theorem enterCallback_eq (k : CbKind) (e : Event) (s : State) :
    enterCallback k e s =
      { s with cbKind := k, trace := s.trace ++ [e], seq := { s.seq with code := .callback } } := rfl

theorem leaveCallback_eq (s : State) :
    leaveCallback s = { s with cbKind := .none, seq := { s.seq with code := .drain } } := rfl

/-- A continuation a drain may save is no hold of the host, no drain and no tick start, and names a motor the block has. -/
theorem drainReturns_spec {p : SeqPos} (h : p ∈ drainReturns) :
    p.code ≠ .callback ∧ p.code ≠ .drain ∧ p.code ≠ .adcStart ∧ (p.code = .motor ∨ p.code = .pollD → p.idx ≠ 2) := by
  simp only [drainReturns, List.mem_cons, List.not_mem_nil, or_false] at h
  rcases h with rfl | rfl | rfl | rfl | rfl | rfl <;> simp

end Sys2Proof.Machine
end

