-- ==== Sys2Proof/Laws/Framer.lean ====
section
/-! SUPPORT. What a received byte and a drain step can do (41_framer.md). -/

namespace Sys2Proof.Machine

open Sys2Proof

/-- A drain step with a byte to take: the byte step of the framer state (41_framer.md R200, R216). -/
theorem drainStep_byte {s : State} {b : Byte} {rest : List Byte} (h : s.ports.rxFifo = b :: rest)
    (hl : s.drainFrames.toNat < s.cfg.framesPerDrain) :
    drainStep s = framerByteIn s.framer.fstate b { s with ports := { s.ports with rxFifo := rest } } := by
  simp only [drainStep, fifoPop_cons h, if_pos hl, framerByte]

/-- A drain step with nothing to take, or at the frame limit, ends the drain (41_framer.md R216, R217). -/
theorem drainStep_end {s : State} (h : s.ports.rxFifo = [] ∨ s.cfg.framesPerDrain ≤ s.drainFrames.toNat) :
    drainStep s = .next { s with seq := s.drainRet } := by
  rcases h with h | h
  · simp [drainStep, fifoPop_nil h, drainEnd, State.goto]
  · simp [drainStep, Nat.not_lt.2 h, drainEnd, State.goto]

/-- A code row of the framer with a byte to take. -/
theorem framerInstr_byte {s : State} {b : Byte} {rest : List Byte} (h : s.ports.rxFifo = b :: rest) (f : FramerCode) :
    framerInstr f s = framerByteIn f b { s with ports := { s.ports with rxFifo := rest } } := by
  simp only [framerInstr, fifoPop_cons h]

/-- A byte step gives a next state but for a payload byte with no place in the buffer. -/
theorem framerByteIn_next (f : FramerCode) (b : Byte) (s : State) (h : f = .receive → s.framer.fidx.toNat < maxFrame) :
    ∃ t, framerByteIn f b s = .next t := by
  cases f with
  | receive => simp only [framerByteIn, receiveByte, if_pos (h rfl)]; exact ⟨_, rfl⟩
  | waitStart | waitId | waitLength | unload => exact ⟨_, rfl⟩

/-- What the byte steps may change: the framer, the committed buffer, the frame count, the callback kind, the sequencer
position, the trace and the flow-control line (41_framer.md R201 to R211). -/
theorem framerByteIn_frame {f : FramerCode} {b : Byte} {s t : State} (h : framerByteIn f b s = .next t) :
    t = { s with
          framer := t.framer
          rxc := t.rxc
          drainFrames := t.drainFrames
          cbKind := t.cbKind
          seq := { s.seq with code := t.seq.code }
          trace := t.trace
          ports := { s.ports with flowctl := t.ports.flowctl } } := by
  cases f with
  | waitStart =>
    simp only [framerByteIn, Host.Outcome.next.injEq] at h
    subst h
    unfold waitStartByte
    extract_lets
    split
    · rfl
    · split <;> rfl
  | waitId => simp only [framerByteIn, Host.Outcome.next.injEq] at h; subst h; rfl
  | waitLength =>
    simp only [framerByteIn, Host.Outcome.next.injEq] at h
    subst h
    unfold waitLengthByte
    split
    · rfl
    · split <;> rfl
  | receive =>
    simp only [framerByteIn, receiveByte] at h
    split at h
    · simp only [Host.Outcome.next.injEq] at h
      subst h
      split <;> rfl
    · cases h
  | unload =>
    simp only [framerByteIn, Host.Outcome.next.injEq] at h
    subst h
    unfold unloadByte
    extract_lets
    split <;> rfl

end Sys2Proof.Machine
end

