-- ==== Sys2Proof/Laws/Motor.lean ====
section
/-! SUPPORT. What a PID evaluation, a mode, the output stage and a motor step can do (44_motor_control.md). -/

namespace Sys2Proof.Machine

open Sys2Proof

@[simp] theorem sensorOf_eq (m : Fin 2) : sensorOf m = m.castSucc := by
  revert m; decide

/-- The product of a gain, written out (42_numeric_utils.md R236). -/
theorem qmul_eq (k v : Int) : qmul k v = (BitVec.ofInt 32 (k * v / 65536)).toInt := rfl

/-- The proportional term, written out (44_motor_control.md R271, R273). -/
theorem pTerm_eq (c : Config) (kp e : Int) :
    pTerm c kp e =
      if max e (-e) ≤ c.pThresh then (BitVec.ofInt 32 (kp * e / 65536)).toInt
      else (BitVec.ofInt 32 (kp * (e / 2 ^ c.pPreshift) / 2 ^ c.pPostshift)).toInt := by
  unfold pTerm
  rw [iabs_eq_max]
  rfl

/-- A position-type evaluation: the relation of `PidEvaluates`, the position set of its motor stored, nothing else changed
(44_motor_control.md R271, R272). -/
theorem pid_posl_spec (m : Fin 2) (g : Gains) (e : Int) (s : State) :
    ∃ u i p,
      pid .posl m g e s =
        (u, { s with pid := { s.pid with posInt := s.pid.posInt.set m i, posEprev := s.pid.posEprev.set m p } })
      ∧ PidEvaluates s.cfg g s.cfg.posIntSat (s.pid.posInt.get m) (s.pid.posEprev.get m) e u i p :=
  ⟨_, _, _, rfl, by simp only [pTerm_eq]; rfl, rfl, rfl⟩

/-- A current-type evaluation: the relation of `PidEvaluates`, the current set of its motor stored, nothing else changed
(44_motor_control.md R271, R272). -/
theorem pid_currl_spec (m : Fin 2) (g : Gains) (e : Int) (s : State) :
    ∃ u i p,
      pid .currl m g e s =
        (u, { s with pid := { s.pid with currInt := s.pid.currInt.set m i, currEprev := s.pid.currEprev.set m p } })
      ∧ PidEvaluates s.cfg g s.cfg.currIntSat (s.pid.currInt.get m) (s.pid.currEprev.get m) e u i p :=
  ⟨_, _, _, rfl, by simp only [pTerm_eq]; rfl, rfl, rfl⟩

/-- A mode changes the accumulators only (44_motor_control.md R270, R272). -/
theorem modeCommand_frame (c : Option ModeCode) (m : Fin 2) (s : State) :
    (modeCommand c m s).2 = { s with pid := (modeCommand c m s).2.pid } := by
  cases c with
  | none => rfl
  | some c => cases c <;> rfl

/-- PWM mode and the reserved modes run no PID (44_motor_control.md R285, R286). -/
theorem modeCommand_no_pid {c : Option ModeCode} (h : c = some .pwm ∨ c = none) (m : Fin 2) (s : State) :
    (modeCommand c m s).2 = s := by
  rcases h with rfl | rfl <;> rfl

/-- The output stage writes one channel's direction, magnitude and sign and emits one event (44_motor_control.md R293,
R294). -/
theorem outputStage_frame (m : Fin 2) (u : Int) (isPwm : Bool) (s : State) :
    outputStage m u isPwm s =
      { s with drive := (outputStage m u isPwm s).drive, trace := (outputStage m u isPwm s).trace } := rfl

/-- A motor step changes the accumulators, the drive registers and the trace only (44_motor_control.md R270). -/
theorem motorStepIn_frame (c : Option ModeCode) (m : Fin 2) (s : State) :
    motorStepIn c m s =
      { s with
        pid := (motorStepIn c m s).pid
        drive := (motorStepIn c m s).drive
        trace := (motorStepIn c m s).trace } := by
  cases c with
  | none => rfl
  | some c => cases c <;> rfl

/-- Only ENCODER3 overrides the references (44_motor_control.md R290, R291). -/
theorem inputOverride_eq (s : State) : inputOverride s = if s.mem.inputMode = 1 then overrideRefs s else s := by
  unfold inputOverride
  by_cases h : s.mem.inputMode = 1
  · simp [h, inputCodeOf]
  · have h1 : s.mem.inputMode.toNat ≠ 1 := fun h2 => h (BitVec.eq_of_toNat_eq h2)
    rw [if_neg h]
    unfold inputCodeOf
    split
    · next hx => split at hx <;> simp_all
    · rfl
    · rfl

/-- A motor step runs on the motor the sequencer index names; a third motor faults. -/
theorem onMotor_castSucc (f : Fin 2 → State → State) {s : State} {m : Fin 2} (h : s.seq.idx = m.castSucc) :
    onMotor f s = .next (f m s) := by
  simp [onMotor, h]

end Sys2Proof.Machine
end

