-- ==== Sys2Proof/Laws/Numeric.lean ====
section
/-! SUPPORT. What the numeric utilities and the analog front-end can do (42_numeric_utils.md, 45_analog_derating.md). -/

namespace Sys2Proof

@[simp] theorem checksum_nil : checksum [] = 0 := rfl

/-- The fold may start anywhere: the start is XORed in. -/
theorem checksum_foldl (c : Byte) (d : List Byte) : d.foldl (fun c b => c ^^^ b) c = c ^^^ checksum d := by
  induction d generalizing c with
  | nil => simp [checksum]
  | cons b d ih => simp only [checksum, List.foldl_cons]; rw [ih, ih (0 ^^^ b)]; simp [BitVec.xor_assoc]

theorem extractLsb'_xor {k : Nat} (i n : Nat) (v w : BitVec k) :
    (v ^^^ w).extractLsb' i n = v.extractLsb' i n ^^^ w.extractLsb' i n := by
  apply BitVec.eq_of_getLsbD_eq
  intro j hj
  simp [hj]

/-- The hash of an encoder word is linear (42_numeric_utils.md R232). -/
theorem encHash_xor (v w : W32) : encHash (v ^^^ w) = encHash v ^^^ encHash w := by
  simp only [encHash, extractLsb'_xor]
  ac_rfl

theorem qmul_range (k v : Int) : -2147483648 ≤ qmul k v ∧ qmul k v ≤ 2147483647 := wrap32_range _

/-- Multiplying by 1.0 returns an int32 value exactly (42_numeric_utils.md R236). -/
theorem qmul_one {v : Int} (h1 : -2147483648 ≤ v) (h2 : v ≤ 2147483647) : qmul 65536 v = v := by
  unfold qmul asr gainFrac
  have : 65536 * v / 2 ^ 16 = v := by norm_num
  rw [this]
  exact wrap32_of_range h1 h2

theorem derate_above {c : Config} {v : Int} (h : c.vHi ≤ v) : derate c v = 0 := by
  simp [derate, h]

theorem derate_below {c : Config} {v : Int} (h1 : v < c.vHi) (h2 : v < c.vLo) : derate c v = 100 := by
  simp [derate, h2, not_le.2 h1]

/-- Every entry of a checked table is at most 100 (00_scope.md R19). -/
theorem derateTableOk_le : ∀ (l : List Byte), derateTableOk l = true → ∀ b ∈ l, b.toNat ≤ 100
  | [], _, b, hb => by simp at hb
  | [a], h, b, hb => by
    simp only [derateTableOk, decide_eq_true_eq] at h
    simp only [List.mem_singleton] at hb
    subst hb; exact h
  | a :: c :: r, h, b, hb => by
    simp only [derateTableOk, Bool.and_eq_true, decide_eq_true_eq] at h
    rcases List.mem_cons.1 hb with rfl | hb
    · exact h.1.1
    · exact derateTableOk_le (c :: r) h.2 b hb

end Sys2Proof

namespace Sys2Proof.Machine

open Sys2Proof

/-- The filter writes its own state and nothing else (42_numeric_utils.md R234). -/
theorem filterStep_eq (m : Fin 2) (x : Int) (s : State) :
    filterStep m x s =
      let y := BitVec.ofInt 32 (filterValue s.cfg.filtAlpha s.cfg.filtShift (s.filt.get m).toInt x)
      { s with filt := s.filt.set m y } := rfl

/-- The current step writes one filter state and the same value as one current (45_analog_derating.md R312). -/
theorem storeCurrent_spec (m : Fin 2) (s : State) :
    ∃ y, storeCurrent m s =
      { s with filt := s.filt.set m y, meas := { s.meas with curr := s.meas.curr.set m y } } := by
  refine ⟨(storeCurrent m s).filt.get m, ?_⟩
  simp only [storeCurrent, filterStep, Two.get_set, if_true]

/-- The front-end writes the voltage, the currents, the filter states and the derating limit, and nothing else
(45_analog_derating.md R310). -/
theorem analogFrontEnd_frame (s : State) :
    analogFrontEnd s =
      { s with
        meas := { s.meas with volt := (analogFrontEnd s).meas.volt, curr := (analogFrontEnd s).meas.curr }
        filt := (analogFrontEnd s).filt
        drive := { s.drive with pwmLimit := (analogFrontEnd s).drive.pwmLimit } } := by
  unfold analogFrontEnd
  extract_lets
  split <;> rfl

end Sys2Proof.Machine
end

