-- ==== Sys2Proof/Laws/Params.lean ====
section
/-! SUPPORT. What the check of a parameter set and the boot duty say (00_scope.md R11, R19; 70_reset_and_hazards.md R420). -/

namespace Sys2Proof

@[simp] theorem isInt32_iff (v : Int) : isInt32 v = true ↔ -2147483648 ≤ v ∧ v ≤ 2147483647 := by
  simp [isInt32]

/-- The table check passes exactly when every entry is at most 100 and none is above the one before it (00_scope.md R19). -/
theorem derateTableOk_iff : ∀ l : List Byte,
    derateTableOk l = true ↔
      (∀ b ∈ l, b.toNat ≤ 100)
        ∧ ∀ (i : Nat) (a b : Byte), l[i]? = some a → l[i + 1]? = some b → b.toNat ≤ a.toNat
  | [] => by simp [derateTableOk]
  | [a] => by simp [derateTableOk]
  | a :: c :: r => by
    simp only [derateTableOk, Bool.and_eq_true, decide_eq_true_eq, derateTableOk_iff (c :: r), List.forall_mem_cons]
    constructor
    · rintro ⟨⟨ha, hc⟩, hm, hs⟩
      refine ⟨⟨ha, hm⟩, fun i x y hx hy => ?_⟩
      cases i with
      | zero => simp only [List.getElem?_cons_zero, List.getElem?_cons_succ, Option.some.injEq] at hx hy; subst hx hy; exact hc
      | succ i => exact hs i x y hx hy
    · rintro ⟨⟨ha, hm⟩, hs⟩
      exact ⟨⟨ha, hs 0 a c rfl rfl⟩, hm, fun i x y hx hy => hs (i + 1) x y hx hy⟩

end Sys2Proof

namespace Sys2Proof.Machine

open Sys2Proof

/-- A RESET asks for the whole load again, whatever came before it (70_reset_and_hazards.md R420). -/
@[simp] theorem bootDutyFrom_reset (todo : List Nat) (rest : List Instr) :
    bootDutyFrom todo (.reset :: rest) = bootDutyFrom memAddresses rest := rfl

/-- A TIMER must find every field loaded (70_reset_and_hazards.md R420). -/
@[simp] theorem bootDutyFrom_timer (todo : List Nat) (rest : List Instr) :
    bootDutyFrom todo (.timer :: rest) = (todo.isEmpty && bootDutyFrom todo rest) := by
  cases todo <;> rfl

@[simp] theorem bootDutyFrom_wr (todo : List Nat) (a : Byte) (v : W32) (rest : List Instr) :
    bootDutyFrom todo (.wr a v :: rest) = bootDutyFrom (todo.filter fun x => x != a.toNat) rest := rfl

/-- The constraint check passes exactly when no constraint of 00_scope.md R11 and R19 is broken. -/
theorem constraintsOk_iff (c : Config) : c.constraintsOk = true ↔ ¬ BreaksR11 c := by
  simp only [Config.constraintsOk, BreaksR11, Bool.and_eq_true, decide_eq_true_eq, derateTableOk_iff, not_or, gainFrac,
    Bool.not_eq_true', Bool.and_eq_false_iff, beq_eq_false_iff_ne, not_and, not_exists, not_lt, not_le, ne_eq,
    Decidable.not_not]
  constructor
  · rintro ⟨⟨⟨⟨⟨⟨⟨⟨⟨⟨⟨h1, h2⟩, h3⟩, h4⟩, h5, h5'⟩, h6⟩, h7⟩, h8⟩, h9⟩, h10⟩, h11⟩, h12⟩
    exact ⟨h1, h2, h3, h4, h5, h5', h6, h7, h8, h9, fun a b => h10.elim (· a) (· b), h11, of_decide_eq_true h12⟩
  · rintro ⟨h1, h2, h3, h4, h5, h5', h6, h7, h8, h9, h10, h11, h12⟩
    refine ⟨⟨⟨⟨⟨⟨⟨⟨⟨⟨⟨h1, h2⟩, h3⟩, h4⟩, h5, h5'⟩, h6⟩, h7⟩, h8⟩, h9⟩, ?_⟩, h11⟩, decide_eq_true h12⟩
    exact (Decidable.em _).elim (fun a => .inr (h10 a)) .inl

/-- The range check passes exactly when no range of notes/assumptions/9.md is left (PWM_MAX fits its register by R11). -/
theorem rangesOk_iff (c : Config) (h : c.pwmMax < 2 ^ 15) : c.rangesOk = true ↔ ¬ BreaksRanges c := by
  simp only [Config.rangesOk, BreaksRanges, Bool.and_eq_true, decide_eq_true_eq, isInt32_iff, not_or, List.mem_cons,
    List.not_mem_nil, or_false, exists_eq_or_imp, exists_eq_left]
  constructor <;> intro h <;> and_intros <;> omega

end Sys2Proof.Machine
end

