-- ==== Sys2Proof/Laws/PerInstr.lean ====
section
/-! SUPPORT. Statements for all instructions, made once for each constructor. TableRow: the word of a well-formed instruction
has, on the bits the opcode table fixes, the table's values. -/

namespace Sys2Proof.Laws.TableRow

open Sys2Proof

/-- The fixed bits of an instruction's table row (spec/opcode_table.json): its format's word width, mask and match. -/
structure Row where
  width : Nat
  mask  : Nat
  value : Nat
  deriving DecidableEq, Repr

/-- The row of an instruction, copied from spec/opcode_table.json. -/
def row : Instr → Row
  | .reset => ⟨64, 0xFFFFFFFFFFFFFFFF, 0x0100000000000000⟩
  | .timer => ⟨64, 0xFFFFFFFFFFFFFFFF, 0x0200000000000000⟩
  | .rxb _ => ⟨64, 0xFFFFFFFFFFFFFF00, 0x0300000000000000⟩
  | .enc _ _ => ⟨64, 0xFF00FFFF00000000, 0x0400000000000000⟩
  | .adc _ _ => ⟨64, 0xFF00FFFFFFFF0000, 0x0500000000000000⟩
  | .adcdone => ⟨64, 0xFFFFFFFFFFFFFFFF, 0x0600000000000000⟩
  | .wr _ _ => ⟨64, 0xFF00FFFF00000000, 0x0700000000000000⟩
  | .rd _ => ⟨64, 0xFF00FFFFFFFFFFFF, 0x0800000000000000⟩
  | .hdone => ⟨64, 0xFFFFFFFFFFFFFFFF, 0x0900000000000000⟩
  | .step => ⟨64, 0xFFFFFFFFFFFFFFFF, 0x0A00000000000000⟩
  | .seqIdle => ⟨5, 0x1F, 0x00⟩
  | .seqAdcStart => ⟨5, 0x1F, 0x01⟩
  | .seqDrainB => ⟨5, 0x1F, 0x02⟩
  | .seqEnc => ⟨5, 0x1F, 0x03⟩
  | .seqPollC => ⟨5, 0x1F, 0x04⟩
  | .seqInputOvr => ⟨5, 0x1F, 0x05⟩
  | .seqMotor => ⟨5, 0x1F, 0x06⟩
  | .seqPollD => ⟨5, 0x1F, 0x07⟩
  | .seqAdcWait => ⟨5, 0x1F, 0x08⟩
  | .seqAfe => ⟨5, 0x1F, 0x09⟩
  | .seqCal => ⟨5, 0x1F, 0x0A⟩
  | .seqSwap => ⟨5, 0x1F, 0x0B⟩
  | .seqDrain => ⟨5, 0x1F, 0x0C⟩
  | .seqCallback => ⟨5, 0x1F, 0x0D⟩
  | .framerWaitStart => ⟨3, 0x7, 0x0⟩
  | .framerWaitId => ⟨3, 0x7, 0x1⟩
  | .framerWaitLength => ⟨3, 0x7, 0x2⟩
  | .framerReceive => ⟨3, 0x7, 0x3⟩
  | .framerUnload => ⟨3, 0x7, 0x4⟩
  | .modePosition => ⟨8, 0xFF, 0x00⟩
  | .modePwm => ⟨8, 0xFF, 0x01⟩
  | .modeCurrent => ⟨8, 0xFF, 0x02⟩
  | .modePosCurr => ⟨8, 0xFF, 0x03⟩
  | .modeDeflection => ⟨8, 0xFF, 0x04⟩
  | .modeDeflCurr => ⟨8, 0xFF, 0x05⟩
  | .inputExternal => ⟨8, 0xFF, 0x00⟩
  | .inputEncoder3 => ⟨8, 0xFF, 0x01⟩
  | .calphStop => ⟨3, 0x7, 0x0⟩
  | .calphStart => ⟨3, 0x7, 0x1⟩
  | .calphPause1 => ⟨3, 0x7, 0x2⟩
  | .calphContinue1 => ⟨3, 0x7, 0x3⟩
  | .calphPause2 => ⟨3, 0x7, 0x4⟩
  | .calphContinue2 => ⟨3, 0x7, 0x5⟩

/-- The width and the bits of a word or code. -/
def bitsOf : Encoded → Nat × Nat
  | .txn w => (64, w.toNat)
  | .seq c => (5, c.toNat)
  | .framer c => (3, c.toNat)
  | .mode c => (8, c.toNat)
  | .input c => (8, c.toNat)
  | .calph c => (3, c.toNat)

/-- The encoding of an instruction fits its table row. -/
def Statement (i : Instr) : Prop :=
  i.wellFormed = true →
    (bitsOf (encode i)).1 = (row i).width ∧ (bitsOf (encode i)).2 &&& (row i).mask = (row i).value

/-- Masking a transaction word masks its fields. -/
theorem txnWord_and {op' ai' : Byte} {data' : W32} (op ai mo ma : Byte) (data md : W32) (h1 : op &&& mo = op') (h2 : ai &&& ma = ai')
    (h3 : data &&& md = data') :
    (txnWord op ai data).toNat &&& (mo ++ ma ++ (0xFFFF : BitVec 16) ++ md).toNat = (txnWord op' ai' data').toNat := by
  subst h1 h2 h3
  rw [← BitVec.toNat_and]
  exact congrArg BitVec.toNat (BitVec.and_append.trans (congrArg₂ (· ++ ·)
    (BitVec.and_append.trans (congrArg₂ (· ++ ·) BitVec.and_append rfl)) rfl))

/-- A value in the low n bits has no bit above them. -/
theorem setWidth_and_high (b : Byte) : b.setWidth 32 &&& (0xFFFFFF00 : W32) = 0 := by
  apply BitVec.eq_of_getLsbD_eq
  intro i hi
  rw [BitVec.getLsbD_and, BitVec.getLsbD_setWidth]
  by_cases h : i < 8
  · interval_cases i <;> simp
  · simp [BitVec.getLsbD_of_ge b i (by omega)]

theorem setWidth_and_high16 (v : W16) : v.setWidth 32 &&& (0xFFFF0000 : W32) = 0 := by
  apply BitVec.eq_of_getLsbD_eq
  intro i hi
  rw [BitVec.getLsbD_and, BitVec.getLsbD_setWidth]
  by_cases h : i < 16
  · interval_cases i <;> simp
  · simp [BitVec.getLsbD_of_ge v i (by omega)]

theorem reset : Statement .reset := fun _ => ⟨rfl, rfl⟩

theorem timer : Statement .timer := fun _ => ⟨rfl, rfl⟩

theorem rxb (b : Byte) : Statement (.rxb b) :=
  fun _ => ⟨rfl, txnWord_and (op' := 0x03) (ai' := 0) (data' := 0) 0x03 _ 0xFF 0xFF _ 0xFFFFFF00 rfl (by simp) (setWidth_and_high b)⟩

theorem enc (k : Byte) (w : W32) : Statement (.enc k w) :=
  fun _ => ⟨rfl, txnWord_and (op' := 0x04) (ai' := 0) (data' := 0) 0x04 _ 0xFF 0 _ 0 rfl (by simp) (by simp)⟩

theorem adc (c : Byte) (v : W16) : Statement (.adc c v) :=
  fun _ => ⟨rfl, txnWord_and (op' := 0x05) (ai' := 0) (data' := 0) 0x05 _ 0xFF 0 _ 0xFFFF0000 rfl (by simp) (setWidth_and_high16 v)⟩

theorem adcdone : Statement .adcdone := fun _ => ⟨rfl, rfl⟩

theorem wr (a : Byte) (v : W32) : Statement (.wr a v) :=
  fun _ => ⟨rfl, txnWord_and (op' := 0x07) (ai' := 0) (data' := 0) 0x07 _ 0xFF 0 _ 0 rfl (by simp) (by simp)⟩

theorem rd (a : Byte) : Statement (.rd a) :=
  fun _ => ⟨rfl, txnWord_and (op' := 0x08) (ai' := 0) (data' := 0) 0x08 _ 0xFF 0 _ 0xFFFFFFFF rfl (by simp) (by simp)⟩

theorem hdone : Statement .hdone := fun _ => ⟨rfl, rfl⟩

theorem step : Statement .step := fun _ => ⟨rfl, rfl⟩

theorem seqIdle : Statement .seqIdle := fun _ => ⟨rfl, rfl⟩

theorem seqAdcStart : Statement .seqAdcStart := fun _ => ⟨rfl, rfl⟩

theorem seqDrainB : Statement .seqDrainB := fun _ => ⟨rfl, rfl⟩

theorem seqEnc : Statement .seqEnc := fun _ => ⟨rfl, rfl⟩

theorem seqPollC : Statement .seqPollC := fun _ => ⟨rfl, rfl⟩

theorem seqInputOvr : Statement .seqInputOvr := fun _ => ⟨rfl, rfl⟩

theorem seqMotor : Statement .seqMotor := fun _ => ⟨rfl, rfl⟩

theorem seqPollD : Statement .seqPollD := fun _ => ⟨rfl, rfl⟩

theorem seqAdcWait : Statement .seqAdcWait := fun _ => ⟨rfl, rfl⟩

theorem seqAfe : Statement .seqAfe := fun _ => ⟨rfl, rfl⟩

theorem seqCal : Statement .seqCal := fun _ => ⟨rfl, rfl⟩

theorem seqSwap : Statement .seqSwap := fun _ => ⟨rfl, rfl⟩

theorem seqDrain : Statement .seqDrain := fun _ => ⟨rfl, rfl⟩

theorem seqCallback : Statement .seqCallback := fun _ => ⟨rfl, rfl⟩

theorem framerWaitStart : Statement .framerWaitStart := fun _ => ⟨rfl, rfl⟩

theorem framerWaitId : Statement .framerWaitId := fun _ => ⟨rfl, rfl⟩

theorem framerWaitLength : Statement .framerWaitLength := fun _ => ⟨rfl, rfl⟩

theorem framerReceive : Statement .framerReceive := fun _ => ⟨rfl, rfl⟩

theorem framerUnload : Statement .framerUnload := fun _ => ⟨rfl, rfl⟩

theorem modePosition : Statement .modePosition := fun _ => ⟨rfl, rfl⟩

theorem modePwm : Statement .modePwm := fun _ => ⟨rfl, rfl⟩

theorem modeCurrent : Statement .modeCurrent := fun _ => ⟨rfl, rfl⟩

theorem modePosCurr : Statement .modePosCurr := fun _ => ⟨rfl, rfl⟩

theorem modeDeflection : Statement .modeDeflection := fun _ => ⟨rfl, rfl⟩

theorem modeDeflCurr : Statement .modeDeflCurr := fun _ => ⟨rfl, rfl⟩

theorem inputExternal : Statement .inputExternal := fun _ => ⟨rfl, rfl⟩

theorem inputEncoder3 : Statement .inputEncoder3 := fun _ => ⟨rfl, rfl⟩

theorem calphStop : Statement .calphStop := fun _ => ⟨rfl, rfl⟩

theorem calphStart : Statement .calphStart := fun _ => ⟨rfl, rfl⟩

theorem calphPause1 : Statement .calphPause1 := fun _ => ⟨rfl, rfl⟩

theorem calphContinue1 : Statement .calphContinue1 := fun _ => ⟨rfl, rfl⟩

theorem calphPause2 : Statement .calphPause2 := fun _ => ⟨rfl, rfl⟩

theorem calphContinue2 : Statement .calphContinue2 := fun _ => ⟨rfl, rfl⟩

end Sys2Proof.Laws.TableRow
end

