-- ==== Sys2Proof/Tests/Slice0.lean ====
section
/-! SUPPORT. The model's own tests: ill-formed terms, decoding, one step of every instruction on values of
95_test_vectors.md, and a witness for the hypotheses of every statement that has some. -/

namespace Sys2Proof.Tests

open Sys2Proof Sys2Proof.Machine

/-! ### Well-formedness (30_encoding.md R134) -/

theorem test_wf_enc_index : (Instr.enc 3 0).wellFormed = false ∧ (Instr.enc 2 0).wellFormed = true := by decide

theorem test_wf_adc_index : (Instr.adc 3 0).wellFormed = false ∧ (Instr.adc 2 0xFFFF).wellFormed = true := by decide

/-! ### Decoding: words and codes written out from 30_encoding.md R131 to R155 and V-TXN-1 to V-TXN-16 -/

theorem test_decode_plain :
    decode (.txn 0x0100000000000000) = .ok .reset ∧ decode (.txn 0x0200000000000000) = .ok .timer
    ∧ decode (.txn 0x0600000000000000) = .ok .adcdone ∧ decode (.txn 0x0900000000000000) = .ok .hdone
    ∧ decode (.txn 0x0A00000000000000) = .ok .step := ⟨rfl, rfl, rfl, rfl, rfl⟩

theorem test_decode_operands :
    decode (.txn 0x030000000000003A) = .ok (.rxb 0x3A) ∧ decode (.txn 0x0402000000010001) = .ok (.enc 2 0x00010001)
    ∧ decode (.txn 0x0500000000002EE0) = .ok (.adc 0 12000) ∧ decode (.txn 0x07310000FFFFFFE2) = .ok (.wr 0x31 (-30))
    ∧ decode (.txn 0x0865000000000000) = .ok (.rd 0x65) := ⟨rfl, rfl, rfl, rfl, rfl⟩

theorem test_decode_malformed :
    decode (.txn 0x0B00000000000000) = .error (.reservedOp 0x0B) ∧ decode (.txn 0) = .error (.reservedOp 0)
    ∧ decode (.txn 0x0200000100000000) = .error .rsvNotZero ∧ decode (.txn 0x0200000000000001) = .error .dataNotZero
    ∧ decode (.txn 0x0403000000000000) = .error (.sensorIndex 3) ∧ decode (.txn 0x0300000000000100) = .error .dataNotZero
    ∧ decode (.txn 0x0501000000010000) = .error .dataNotZero ∧ decode (.txn 0x0A01000000000000) = .error .aiNotZero
    ∧ decode (.txn 0x0865000000000001) = .error .dataNotZero ∧ decode (.txn 0x0503000000000000) = .error (.channelIndex 3) :=
  ⟨rfl, rfl, rfl, rfl, rfl, rfl, rfl, rfl, rfl, rfl⟩

theorem test_decode_seq :
    decode (.seq 0b00000) = .ok .seqIdle ∧ decode (.seq 0b00001) = .ok .seqAdcStart
    ∧ decode (.seq 0b00010) = .ok .seqDrainB ∧ decode (.seq 0b00011) = .ok .seqEnc
    ∧ decode (.seq 0b00100) = .ok .seqPollC ∧ decode (.seq 0b00101) = .ok .seqInputOvr
    ∧ decode (.seq 0b00110) = .ok .seqMotor ∧ decode (.seq 0b00111) = .ok .seqPollD
    ∧ decode (.seq 0b01000) = .ok .seqAdcWait ∧ decode (.seq 0b01001) = .ok .seqAfe
    ∧ decode (.seq 0b01010) = .ok .seqCal ∧ decode (.seq 0b01011) = .ok .seqSwap
    ∧ decode (.seq 0b01100) = .ok .seqDrain ∧ decode (.seq 0b01101) = .ok .seqCallback
    ∧ decode (.seq 0b01110) = .error (.reservedSeq 14) :=
  ⟨rfl, rfl, rfl, rfl, rfl, rfl, rfl, rfl, rfl, rfl, rfl, rfl, rfl, rfl, rfl⟩

theorem test_decode_framer :
    decode (.framer 0b000) = .ok .framerWaitStart ∧ decode (.framer 0b001) = .ok .framerWaitId
    ∧ decode (.framer 0b010) = .ok .framerWaitLength ∧ decode (.framer 0b011) = .ok .framerReceive
    ∧ decode (.framer 0b100) = .ok .framerUnload ∧ decode (.framer 0b101) = .error (.reservedFramer 5) :=
  ⟨rfl, rfl, rfl, rfl, rfl, rfl⟩

theorem test_decode_mode :
    decode (.mode 0x00) = .ok .modePosition ∧ decode (.mode 0x01) = .ok .modePwm ∧ decode (.mode 0x02) = .ok .modeCurrent
    ∧ decode (.mode 0x03) = .ok .modePosCurr ∧ decode (.mode 0x04) = .ok .modeDeflection
    ∧ decode (.mode 0x05) = .ok .modeDeflCurr ∧ decode (.mode 0x06) = .error (.reservedMode 6) :=
  ⟨rfl, rfl, rfl, rfl, rfl, rfl, rfl⟩

theorem test_decode_input_and_calph :
    decode (.input 0x00) = .ok .inputExternal ∧ decode (.input 0x01) = .ok .inputEncoder3
    ∧ decode (.input 0x05) = .error (.otherInput 5) ∧ decode (.calph 0b000) = .ok .calphStop
    ∧ decode (.calph 0b001) = .ok .calphStart ∧ decode (.calph 0b010) = .ok .calphPause1
    ∧ decode (.calph 0b011) = .ok .calphContinue1 ∧ decode (.calph 0b100) = .ok .calphPause2
    ∧ decode (.calph 0b101) = .ok .calphContinue2 ∧ decode (.calph 0b110) = .error (.reservedCalph 6) :=
  ⟨rfl, rfl, rfl, rfl, rfl, rfl, rfl, rfl, rfl, rfl⟩

theorem test_table_words :
    decodeTableWord 64 0x0865000000000000 = some (.rd 0x65) ∧ decodeTableWord 8 0x0D = some .seqCallback
    ∧ decodeTableWord 8 0x0E = none ∧ decodeTableWord 8 0x20 = none ∧ decodeTableWord 64 0 = none := by decide

/-! ### Helpers -/

/-- What a result shows of its next state. -/
def seen {α : Type} (r : Result) (f : State → α) : Option α :=
  match r with
  | .next t => some (f t)
  | .fault _ => none
  | .refused _ => none

/-- The state after BOOT(5) (95_test_vectors.md section 0). -/
def boot : State :=
  { State.reset with mem := { DevMem.zero with nodeAddr := 5, encMult := ⟨0x10000, 0x10000, 0x10000⟩ } }

/-- The state at a sequencer position. -/
def State.withPos (s : State) (c : SeqCode) (k : Fin 3) : State := { s with seq := ⟨c, k⟩ }

/-- A state at ENC 0 with the last-known value, the noise count, the turns and the word of sensor 0. -/
def encState (last turns : W16) (noise : BitVec 4) (w : W32) : State :=
  { boot with
    seq := ⟨.enc, 0⟩
    enc := { last := ⟨last, 7, 9⟩, noise := ⟨noise, 1, 2⟩, resetLast := false }
    meas := { boot.meas with turns := ⟨turns, 3, 4⟩ }
    ports := { boot.ports with encWord := ⟨w, 0, 0⟩ } }

/-- Sensor 0's position, turns, last-known value and noise count. -/
def enc0 (s : State) : Int × Int × Int × Nat :=
  (s.meas.pos.a0.toInt, s.meas.turns.a0.toInt, s.enc.last.a0.toInt, s.enc.noise.a0.toNat)

/-- A state at MOTOR m with a mode, a derating limit and references. -/
def motorState (m : Fin 3) (mode limit : Byte) (r0 r1 : W32) : State :=
  { boot with
    seq := ⟨.motor, m⟩
    mem := { boot.mem with ctrlMode := mode }
    drive := { boot.drive with pwmLimit := limit }
    refC := { boot.refC with pos := ⟨r0, r1⟩ } }

/-- Gains (kp, 0, 0). -/
def kpOnly (kp : W32) : Gains := { kp := kp, ki := 0, kd := 0 }

/-- A state in a drain, in a framer state, with received bytes. -/
def frameState (f : FramerCode) (forMe : Bool) (flen fidx : Byte) (bytes : List Byte) : State :=
  { boot with
    seq := ⟨.drain, 0⟩
    drainRet := ⟨.enc, 0⟩
    framer := { boot.framer with fstate := f, forMe := forMe, flen := flen, fidx := fidx, unloadCnt := flen - fidx }
    ports := { boot.ports with rxFifo := bytes } }

/-- A state at the CAL step whose divider wraps, in a phase. -/
def calState (p : CalphCode) (pause : W16) (pend comm curr : Two W32) : State :=
  { boot with
    seq := ⟨.cal, 0⟩
    calDiv := 99
    rxEnabled := !decide (p ∈ suspendedPhases)
    mem := { boot.mem with gPos := { kp := 0x20000, ki := 0x100, kd := 0x400 } }
    cal := { phase := p, pause := pause, saved := { kp := 0x30000, ki := 0x200, kd := 0x500 }, savedOnoff := 1 }
    refP := { pos := pend, onoff := 3 }
    refC := { pos := comm, onoff := 3 }
    meas := { boot.meas with curr := curr } }

/-! ### One step of each instruction -/

/-- V-RST-2. -/
theorem test_reset : seen (exec .reset { calState .pause1 2 ⟨1, 1⟩ ⟨2, 2⟩ ⟨3, 3⟩ with trace := [.adcStart] })
    (fun t => (t.seq.code, t.cal.phase, t.rxEnabled, t.refP.pos, t.trace)) =
    some (.idle, .stop, true, ⟨0, 0⟩, [.adcStart]) := by decide

/-- V-SCH-4. -/
theorem test_timer : seen (exec .timer (State.withPos boot .adcWait 0)) (fun t => (t.tickPending, t.seq.code)) =
    some (true, .adcWait) := by decide

/-- V-HST-18. -/
theorem test_rxb : seen (exec (.rxb 0x3A) boot) (fun t => (t.ports.rxFifo, t.rxFlag, t.seq.code)) =
    some ([0x3A], true, .idle) := by decide

/-- V-FRM-24, with a FIFO of two bytes. -/
theorem test_rxb_full :
    seen (exec (.rxb 0x55) { boot with cfg := { boot.cfg with rxFifoDepth := 2 }, ports := { boot.ports with rxFifo := [1, 2] } })
      (fun t => (t.ports.rxFifo, t.rxFlag)) = some ([1, 2], true) := by decide

/-- V-HST-19. -/
theorem test_enc : seen (exec (.enc 2 0x00010001) boot) (fun t => t.ports.encWord) = some ⟨0, 0, 0x00010001⟩ := by decide

/-- V-TXN-4. -/
theorem test_adc : seen (exec (.adc 0 12000) boot) (fun t => (t.ports.adcRaw, t.ports.adcReady)) =
    some (⟨12000, 0, 0⟩, false) := by decide

/-- 47_host_interface.md R369. -/
theorem test_adcdone : seen (exec .adcdone boot) (fun t => t.ports.adcReady) = some true := by decide

/-- V-HST-2. -/
theorem test_wr : seen (exec (.wr 0x20 0x12348000) boot) (fun t => (t.mem.encOff.a0.toInt, regRead 0x20 t)) =
    some (-32768, 0xFFFF8000) := by decide

/-- V-HST-7. -/
theorem test_wr_in_tick : seen (exec (.wr 0x30 0x00010000) (State.withPos boot .enc 0)) (fun t => t.refP.pos.a0) = some 0 := by
  decide

/-- V-HST-1. -/
theorem test_rd : seen (exec (.rd 0x65) State.reset) (fun t => t.trace) = some [.regRdData 0x65 6] := by decide

/-- V-HST-15: RX_BUF_0 and RX_BUF_1 of the payload B0 B1 B2 B3 B4. -/
theorem test_rd_rx_buf :
    let s := { boot with rxc := { buf := [(0, 0xB0), (1, 0xB1), (2, 0xB2), (3, 0xB3), (4, 0xB4)], len := 5, ready := true } }
    seen (exec (.rd 0x80) s) (fun t => t.trace) = some [.regRdData 0x80 0xB3B2B1B0] ∧ regRead 0x81 s = 0xB4 := by decide

/-- V-HST-13 and 47_host_interface.md R367. -/
theorem test_hdone :
    seen (exec .hdone { boot with seq := ⟨.callback, 0⟩, cbKind := .info }) (fun t => (t.seq, t.cbKind)) =
      some (⟨.drain, 0⟩, .none)
    ∧ seen (exec .hdone boot) (fun t => t.seq) = some ⟨.idle, 0⟩ := by decide

/-- STEP in SWAP ends the tick (V-SCH-8). -/
theorem test_step : seen (exec .step (State.withPos boot .swap 0)) (fun t => (t.seq, t.trace)) =
    some (⟨.idle, 0⟩, [.driveEn 0, .timerReset]) := by decide

/-- V-SCH-10 and the tick start. -/
theorem test_seq_idle :
    seen (exec .seqIdle boot) (fun t => t.seq.code) = some .idle
    ∧ seen (exec .seqIdle { boot with tickPending := true }) (fun t => (t.seq.code, t.tickPending)) =
        some (.adcStart, false) := by decide

/-- V-SCH-5. -/
theorem test_seq_adc_start :
    seen (exec .seqAdcStart { boot with ports := { boot.ports with adcReady := true } })
      (fun t => (t.ports.adcReady, t.trace, t.seq.code)) = some (false, [.adcStart], .drainB) := by decide

/-- V-SCH-9. -/
theorem test_seq_drain_b :
    seen (exec .seqDrainB { boot with rxEnabled := false, rxFlag := true }) (fun t => (t.seq, t.rxFlag)) =
      some (⟨.enc, 0⟩, true)
    ∧ seen (exec .seqDrainB { boot with rxFlag := true }) (fun t => (t.seq.code, t.drainRet, t.rxFlag)) =
      some (.drain, ⟨.enc, 0⟩, false) := by decide

/-- V-ENC-4: one turn up. -/
theorem test_seq_enc : seen (exec .seqEnc (encState 32752 0 0 0x00020001)) (fun t => (enc0 t, t.seq)) =
    some ((32768, 1, -32768, 0), ⟨.pollC, 0⟩) := by decide

/-- V-ENC-14: the turn counter and the position wrap. -/
theorem test_seq_enc_wrap : seen (exec .seqEnc (encState 32752 32767 0 0x00020001)) enc0 =
    some (2147450880, -32768, -32768, 0) := by decide

/-- 40_scheduler.md R175. -/
theorem test_seq_poll_c :
    seen (exec .seqPollC (State.withPos boot .pollC 2)) (fun t => t.seq) = some ⟨.inputOvr, 0⟩
    ∧ seen (exec .seqPollC { State.withPos boot .pollC 1 with rxFlag := true }) (fun t => (t.seq.code, t.drainRet)) =
      some (.drain, ⟨.enc, 2⟩) := by decide

/-- V-MOT-27. -/
theorem test_seq_input_ovr :
    seen (exec .seqInputOvr
      { boot with
        mem := { boot.mem with inputMode := 1, posLimEn := true, posLimSup := ⟨0x00020000, 0x00040000⟩ }
        meas := { boot.meas with pos := ⟨0, 0, 0x00030000⟩ } })
      (fun t => (t.refC.pos, t.seq)) = some (⟨0x00020000, 0x00030000⟩, ⟨.motor, 0⟩) := by decide

/-- V-MOT-15, motor 1. -/
theorem test_seq_motor :
    seen (exec .seqMotor { motorState 1 0 75 50 (-50) with mem := { boot.mem with gPos := kpOnly 0x10000 } })
      (fun t => (t.trace, t.drive.sign, t.seq)) = some ([.pwm 1 true 37], ⟨.pos, .neg⟩, ⟨.pollD, 1⟩) := by decide

/-- V-MOT-13: the step after the mode switch carries the integral. -/
theorem test_seq_motor_bleed :
    seen (exec .seqMotor
      { motorState 0 4 100 100 0 with
        mem := { boot.mem with ctrlMode := 4, gDefl := { kp := 0, ki := 0x10000, kd := 0 } }
        meas := { boot.meas with pos := ⟨100, 0, 0⟩ }
        pid := { boot.pid with posInt := ⟨1000, 0⟩, posEprev := ⟨100, 0⟩ } })
      (fun t => (t.trace, t.pid.posInt)) = some ([.pwm 0 false 100], ⟨1000, 0⟩) := by decide

/-- 40_scheduler.md R178. -/
theorem test_seq_poll_d :
    seen (exec .seqPollD (State.withPos boot .pollD 0)) (fun t => t.seq) = some ⟨.motor, 1⟩
    ∧ seen (exec .seqPollD { State.withPos boot .pollD 1 with rxFlag := true }) (fun t => (t.seq.code, t.drainRet)) =
      some (.drain, ⟨.adcWait, 0⟩) := by decide

/-- V-SCH-11 and a ready conversion. -/
theorem test_seq_adc_wait :
    seen (exec .seqAdcWait (State.withPos boot .adcWait 0)) (fun t => t.seq.code) = some .adcWait
    ∧ seen (exec .seqAdcWait { boot with rxFlag := true, ports := { boot.ports with adcReady := true } })
      (fun t => (t.seq.code, t.rxFlag)) = some (.afe, true) := by decide

/-- V-AFE-2. -/
theorem test_seq_afe :
    seen (exec .seqAfe
      { boot with
        drive := { boot.drive with sign := ⟨.pos, .neg⟩ }
        ports := { boot.ports with adcRaw := ⟨12000, 1000, 1000⟩ } })
      (fun t => (t.meas.volt, t.drive.pwmLimit, t.meas.curr.a0.toInt, t.meas.curr.a1.toInt)) = some (12000, 84, 31, -32) := by
  decide

/-- V-AFE-3. -/
theorem test_seq_afe_zero :
    seen (exec .seqAfe
      { boot with
        drive := { boot.drive with pwmLimit := 84 }
        filt := ⟨500, -7⟩
        meas := { boot.meas with curr := ⟨1, 2⟩ }
        ports := { boot.ports with adcRaw := ⟨0, 5000, 5000⟩ } })
      (fun t => (t.meas.volt, t.drive.pwmLimit, t.meas.curr, t.filt)) = some (0, 84, ⟨0, 0⟩, ⟨500, -7⟩) := by decide

/-- V-SCH-7. -/
theorem test_seq_cal :
    seen (exec .seqCal { calState .start 0 ⟨0, 0⟩ ⟨0, 0⟩ ⟨0, 0⟩ with calDiv := 98 })
      (fun t => (t.calDiv, t.cal.phase, t.seq.code)) = some (99, .start, .swap) := by decide

/-- V-CAL-5: motor 0 is tested first and motor 1's committed reference is captured. -/
theorem test_seq_cal_capture :
    seen (exec .seqCal (calState .continue1 0 ⟨0x1200, -0x1200⟩ ⟨0x1200, -0x1200⟩ ⟨310, -400⟩))
      (fun t => (t.mem.maxStiff, t.mem.gPos.kp, t.refP.pos, t.cal.phase, t.calDiv)) =
      some (0xFFFFEE00, 0x30000, ⟨0, 0⟩, .pause2, 0) := by decide

/-- V-SCH-8. -/
theorem test_seq_swap :
    seen (exec .seqSwap { boot with refP := { pos := ⟨0x00010000, 0⟩, onoff := 2 } })
      (fun t => (t.refPrev.pos.a0, t.refC.pos.a0, t.refP.pos.a0, t.seq.code, t.trace)) =
      some (0, 0x00010000, 0x00010000, .idle, [.driveEn 2, .timerReset]) := by decide

/-- V-FRM-1: the last byte of an own frame. -/
theorem test_seq_drain :
    seen (exec .seqDrain
      { frameState .receive true 5 4 [0x55] with
        framer := { boot.framer with
                    fstate := .receive, forMe := true, flen := 5, fidx := 4,
                    fbuf := [(0, 0x11), (1, 0x22), (2, 0x33), (3, 0x44)] } })
      (fun t => (t.rxc, t.seq.code, t.cbKind, t.trace, t.framer.fstate)) =
      some ({ buf := [(0, 0x11), (1, 0x22), (2, 0x33), (3, 0x44), (4, 0x55)], len := 5, ready := true },
        .callback, .frame, [.callbackFrame 5], .waitStart) := by decide

/-- 41_framer.md R216, R217. -/
theorem test_seq_drain_end : seen (exec .seqDrain (frameState .waitStart false 0 0 [])) (fun t => t.seq) = some ⟨.enc, 0⟩ := by
  decide

/-- V-HST-14. -/
theorem test_seq_callback : seen (exec .seqCallback (State.withPos boot .callback 1)) (fun t => t.seq) =
    some ⟨.callback, 1⟩ := by decide

/-- V-FRM-9: the last byte of the query. -/
theorem test_framer_wait_start :
    seen (exec .framerWaitStart
      { frameState .waitStart false 0 0 [0x0A] with framer := { boot.framer with win := ⟨0, 0x3F, 0x0D⟩ } })
      (fun t => (t.trace, t.cbKind, t.drainFrames)) = some ([.callbackInfo], .info, 0) := by decide

/-- V-FRM-8: the broadcast address. -/
theorem test_framer_wait_id :
    seen (exec .framerWaitId (frameState .waitId false 0 0 [0x00, 0x02])) (fun t => (t.framer.forMe, t.framer.fstate)) =
      some (true, .waitLength) := by decide

/-- V-FRM-4 and V-FRM-6: lengths 129 and 128. -/
theorem test_framer_wait_length :
    seen (exec .framerWaitLength (frameState .waitLength true 0 0 [0x81])) (fun t => (t.framer.fstate, t.framer.forMe)) =
      some (.waitStart, false)
    ∧ seen (exec .framerWaitLength (frameState .waitLength true 0 0 [0x80])) (fun t => (t.framer.fstate, t.framer.flen)) =
      some (.receive, 128) := by decide

/-- V-FRM-15: one byte of two. -/
theorem test_framer_receive :
    seen (exec .framerReceive (frameState .receive true 2 0 [0x77])) (fun t => regRead 0x64 t) = some 0x0001020B := by decide

/-- V-FRM-2: the last skipped byte. -/
theorem test_framer_unload :
    seen (exec .framerUnload (frameState .unload false 3 2 [0x03]))
      (fun t => (t.trace, t.framer.fstate, t.drainFrames, t.ports.flowctl)) = some ([.flowctlPulse], .waitStart, 1, true) := by
  decide

/-- V-MOT-2. -/
theorem test_mode_position :
    seen (exec .modePosition { motorState 0 9 100 12800 0 with mem := { boot.mem with gPos := kpOnly 0x100 } })
      (fun t => (t.trace, t.pid.posInt.a0, t.pid.posEprev.a0)) = some ([.pwm 0 false 50], 12800, 12800) := by decide

/-- V-MOT-18. -/
theorem test_mode_pwm :
    seen (exec .modePwm (motorState 0 9 0 (-40) 500)) (fun t => t.trace) = some [.pwm 0 true 40]
    ∧ seen (exec .modePwm (motorState 1 9 0 (-40) 500)) (fun t => t.trace) = some [.pwm 1 false 100] := by decide

/-- V-MOT-19. -/
theorem test_mode_current :
    seen (exec .modeCurrent
      { motorState 0 9 100 80 0 with
        mem := { boot.mem with gCurr := kpOnly 0x10000 }, meas := { boot.meas with curr := ⟨30, 0⟩ } })
      (fun t => (t.trace, t.pid.currInt.a0, t.pid.currEprev.a0)) = some ([.pwm 0 false 50], 50, 50) := by decide

/-- V-MOT-21. -/
theorem test_mode_pos_curr :
    seen (exec .modePosCurr
      { motorState 0 9 100 2000 0 with
        mem := { boot.mem with gPos := kpOnly 0x10000, gCurr := kpOnly 0x10000 }
        meas := { boot.meas with curr := ⟨30, 0⟩ } })
      (fun t => (t.trace, t.drive.sign.a0)) = some ([.pwm 0 true 30], .neg) := by decide

/-- V-MOT-23. -/
theorem test_mode_deflection :
    seen (exec .modeDeflection
      { motorState 1 9 100 0 100 with
        mem := { boot.mem with gDefl := kpOnly 0x10000 }, meas := { boot.meas with pos := ⟨0, 90, 20⟩ } })
      (fun t => t.trace) = some [.pwm 1 false 30] := by decide

/-- V-MOT-22. -/
theorem test_mode_defl_curr :
    seen (exec .modeDeflCurr
      { motorState 1 9 84 0 0 with
        mem := { boot.mem with gDefl := kpOnly 0x10000, gDcurr := kpOnly 0x10000, currLimit := 1000 }
        meas := { boot.meas with pos := ⟨0, 0, -300⟩, curr := ⟨0, -50⟩ } })
      (fun t => (t.trace, t.pid.posInt.a1.toInt, t.pid.currInt.a1.toInt)) = some ([.pwm 1 true 84], -300, -250) := by decide

/-- V-MOT-30: the references stay. -/
theorem test_input_external :
    seen (exec .inputExternal { boot with refC := { pos := ⟨1, 2⟩, onoff := 0 } }) (fun t => t.refC.pos) = some ⟨1, 2⟩ := by
  decide

/-- V-MOT-28: inf wins when inf is above sup. -/
theorem test_input_encoder3 :
    seen (exec .inputEncoder3
      { boot with
        mem := { boot.mem with posLimEn := true, posLimInf := ⟨100, 0⟩, posLimSup := ⟨50, 0⟩ }
        meas := { boot.meas with pos := ⟨0, 0, -7⟩ } })
      (fun t => t.refC.pos.a0) = some 100 := by decide

/-- V-CAL-11. -/
theorem test_calph_stop : seen (exec .calphStop (calState .stop 2 ⟨1, 2⟩ ⟨3, 4⟩ ⟨5, 6⟩)) (fun t => (t.cal.phase, t.refP.pos)) =
    some (.stop, ⟨1, 2⟩) := by decide

/-- V-CAL-1. -/
theorem test_calph_start :
    seen (exec .calphStart { calState .start 7 ⟨0, 0⟩ ⟨0, 0⟩ ⟨0, 0⟩ with refP := { pos := ⟨0x00018000, 0⟩, onoff := 1 } })
      (fun t => (t.refP, t.cal, t.rxEnabled)) =
      some ({ pos := ⟨0, 0⟩, onoff := 3 },
        { phase := .pause1, pause := 0, saved := { kp := 0x20000, ki := 0x100, kd := 0x400 }, savedOnoff := 1 }, false) := by
  decide

/-- V-CAL-2, the third invocation. -/
theorem test_calph_pause1 :
    seen (exec .calphPause1 (calState .pause1 2 ⟨0, 0⟩ ⟨0, 0⟩ ⟨0, 0⟩)) (fun t => (t.cal.phase, t.cal.pause, t.mem.gPos)) =
      some (.continue1, 0, { kp := 0x8000, ki := 0, kd := 0x1000 }) := by decide

/-- V-CAL-4: both references wrap. -/
theorem test_calph_continue1 :
    seen (exec .calphContinue1 (calState .continue1 0 ⟨0x7FFFFF80, -0x7FFFFF80⟩ ⟨0, 0⟩ ⟨300, -300⟩))
      (fun t => (t.refP.pos.a0.toInt, t.refP.pos.a1.toInt, t.cal.phase)) =
      some (-2147483520, 2147483520, .continue1) := by decide

/-- V-CAL-9, the third invocation. -/
theorem test_calph_pause2 :
    seen (exec .calphPause2 (calState .pause2 2 ⟨0, 0⟩ ⟨0, 0⟩ ⟨0, 0⟩)) (fun t => (t.cal.phase, t.cal.pause)) =
      some (.continue2, 0) := by decide

/-- V-CAL-10. -/
theorem test_calph_continue2 :
    let s := calState .continue2 0 ⟨0, 0⟩ ⟨0, 0⟩ ⟨0, 0⟩
    seen (exec .calphContinue2 s) (fun t => (t.refP.onoff, t.trace, t.cal.phase, t.rxEnabled)) =
      some (1, [.store 1 s.mem, .store 0 s.mem], .stop, true) := by decide

/-! ### The numeric utilities (V-NUM, V-AFE) and the assembler (S1) -/

theorem test_checksum : checksum [0x3A, 0x3A, 0x05, 0x05, 0x11, 0x22, 0x33, 0x44, 0x55] = 0x11 := by decide

theorem test_enc_valid :
    encValid 0x9669 0x00020007 = true ∧ encValid 0x9669 0x00020003 = false ∧ encHash 0x12345678 = 8 := by decide

theorem test_filter : filterValue 32 10 0 (-1000) = -32 ∧ filterValue 32 10 969 1000 = 969 := by decide

theorem test_qmul : qmul 0x20000 0x40000000 = -2147483648 ∧ qmul 0x7FFFFFFF 0x7FFFFFFF = -65536 ∧ qmul 0x8000 (-3) = -2 := by
  decide

theorem test_tdiv : tdiv (-2604) 100 = -26 ∧ tdiv (-99) 100 = 0 ∧ lin 0 1 3 1 = -2 := by decide

theorem test_p_term :
    pTerm boot.cfg 0x10001 131072 = 131074 ∧ pTerm boot.cfg 0x10000 (-131073) = -131328 ∧ pTerm boot.cfg 3 (-131073) = -7 := by
  decide

theorem test_derate :
    [7999, 8000, 8500, 12000, 12500, 25500, 26000].map (derate boot.cfg) = [100, 100, 98, 84, 82, 30, 0] := by decide

theorem test_asm_frame : asmWords (asmFrame 5 [0xB0, 0xB1]) =
    [0x030000000000003A, 0x030000000000003A, 0x0300000000000005, 0x0300000000000002, 0x03000000000000B0,
     0x03000000000000B1] := by decide

/-! ### The boot duty (70_reset_and_hazards.md R420) -/

/-- A WR of 0 to each of the 28 Mem fields. -/
def bootWrites : List Instr := memAddresses.map fun a => .wr (BitVec.ofNat 8 a) 0

/-- A second RESET asks for a second load before the next TIMER. -/
theorem test_boot_duty_second_reset :
    bootDuty (.reset :: bootWrites ++ [.timer, .reset, .timer]) = false
    ∧ bootDuty (.reset :: bootWrites ++ [.timer, .reset] ++ bootWrites ++ [.timer, .timer]) = true := by decide

/-- A TIMER before the list's first RESET is not judged; the one after it is. -/
theorem test_boot_duty_earlier_timer :
    bootDuty ([.timer, .reset] ++ bootWrites ++ [.timer]) = true
    ∧ bootDuty ([.timer, .reset] ++ bootWrites.tail ++ [.timer]) = false := by decide

/-- From the reset state the first TIMER needs the load. -/
theorem test_boot_duty_from_reset :
    bootDutyAfterReset [.timer] = false ∧ bootDutyAfterReset (bootWrites ++ [.timer]) = true := by decide

/-! ### The step -/

/-- V-TXN-12: a malformed word is consumed without effect; a SEQ word placed for the fetch runs. -/
theorem test_step_fetch :
    seen (step { boot with txns := [0x0403000000000000, 7] }) (fun t => (t.ports.encWord, t.txns)) = some (⟨0, 0, 0⟩, [7])
    ∧ seen (step (State.reset.withFetchWord 8 0x0B)) (fun t => (t.seq.code, t.trace)) =
        some (.idle, [.driveEn 0, .timerReset])
    ∧ seen (step (State.reset.withFetchWord 64 0x0200000000000000)) (fun t => t.tickPending) = some true := by decide

/-! ### Witnesses: concrete states and operands that meet the hypotheses of the statements, clause by clause -/

/-- A next state, named by a step. -/
def after (r : Result) (s : State) : State :=
  match r with
  | .next t => t
  | .fault _ => s
  | .refused _ => s

/-- A state of the invariant that is not the reset state: a tick is requested. -/
def ticking : State := { State.reset with tickPending := true }

theorem witness_legal : Legal ticking where
  params := by decide
  motorIdx := by decide
  drainRet := by decide
  draining := by decide
  callback := by decide
  frames := by decide
  receiving := by decide
  unloading := by decide
  fbuf := by decide
  rxcBuf := by decide
  rxcLen := by decide
  fifo := by decide
  calDiv := by decide
  noise := by decide
  pwmLimit := by decide
  posInt := by decide
  currInt := by decide
  pwmMag := by decide
  pwmSign := by decide
  flowctl := rfl
  session := by decide

/-- WrWritesItsRegister: a position of each clause, and the first and the last address that ignores a write. -/
theorem witness_WrWritesItsRegister :
    ((State.withPos boot .enc 0).seq.code ≠ .idle ∧ (State.withPos boot .enc 0).seq.code ≠ .callback)
    ∧ boot.seq.code = .idle ∧ (State.withPos boot .callback 0).seq.code = .callback
    ∧ (0x0A : Byte).toNat ∉ writableAddresses ∧ (0xFF : Byte).toNat ∉ writableAddresses := by decide

/-- WriteThenReadBack: the first and the last address, in each position. -/
theorem witness_WriteThenReadBack :
    (0x00 : Byte).toNat ∈ memAddresses ++ [0x30, 0x31, 0x32] ∧ (0x32 : Byte).toNat ∈ memAddresses ++ [0x30, 0x31, 0x32]
    ∧ boot.seq.code = .idle ∧ (State.withPos boot .callback 0).seq.code = .callback := by decide

/-- RegisterMapReads: the first and the last unmapped address. -/
theorem witness_RegisterMapReads :
    ((0x0A : Byte).toNat ∉ mappedAddresses ∧ (0x0A : Byte).toNat / 32 ≠ 4)
    ∧ ((0xFF : Byte).toNat ∉ mappedAddresses ∧ (0xFF : Byte).toNat / 32 ≠ 4) := by decide

/-- CallbackHoldsUntilHdone. -/
theorem witness_CallbackHoldsUntilHdone :
    (State.withPos boot .callback 0).seq.code = .callback ∧ boot.seq.code ≠ .callback := by decide

/-- StepPerformsTheMicroOperation: the last motor, sensor 2 (no motor step), the last buffer index with a byte to store, and the
three holds. -/
theorem witness_StepPerformsTheMicroOperation :
    ((State.withPos boot .motor 1).seq.code = .motor ∧ (State.withPos boot .motor 1).seq.idx ≠ 2)
    ∧ ((State.withPos boot .enc 2).seq.code ≠ .motor ∧ (State.withPos boot .enc 2).seq.code ≠ .drain)
    ∧ (let s := frameState .receive true 128 127 [1]
       s.seq.code = .drain ∧ s.framer.fstate = .receive ∧ s.ports.rxFifo ≠ [] ∧ s.framer.fidx.toNat < 128)
    ∧ (boot.seq.code = .idle ∧ boot.tickPending = false)
    ∧ (let s := { State.withPos boot .adcWait 0 with rxEnabled := false, rxFlag := true }
       s.seq.code = .adcWait ∧ s.ports.adcReady = false ∧ ¬(s.rxEnabled = true ∧ s.rxFlag = true))
    ∧ (State.withPos boot .callback 0).seq.code = .callback := by decide

/-- EncUnwrapsTheSample: the last noise count below the limit, and the boundary deltas 49152, 49168, -49152 and 16384 of
V-ENC-6, 8, 9 and 2 in their branches. -/
theorem witness_EncUnwrapsTheSample :
    ((encState 0 0 9 0x00010040).enc.noise.get 0).toNat < noiseLimit
    ∧ seen (exec .seqEnc (encState 0 0 9 0x00010040)) enc0 = some (16400, 0, 16400, 0)
    ∧ seen (exec .seqEnc (encState 0 0 0 0x00004000)) enc0 = some (0, 0, 0, 0)
    ∧ seen (exec .seqEnc (encState (-16400) 0 0 0x0001FFC1)) enc0 = some (0, 0, -16400, 1)
    ∧ seen (exec .seqEnc (encState (-32768) 0 0 0x00010040)) enc0 = some (-49136, -1, 16400, 0)
    ∧ seen (exec .seqEnc (encState 16384 0 0 0x00020001)) enc0 = some (0, 0, 16384, 1)
    ∧ seen (exec .seqEnc (encState 0 0 0 0x00010001)) enc0 = some (16384, 0, 16384, 0) :=
  ⟨by decide, by decide, by decide, by decide, by decide, by decide, by decide⟩

/-- TenthNoiseSampleIsAccepted: half a turn (V-ENC-27) and the largest delta of the band. -/
theorem witness_TenthNoiseSampleIsAccepted :
    let holds (s : State) : Prop :=
      let k := s.seq.idx
      let w := s.ports.encWord.get k
      let delta : Int := (rawAngle s.cfg.encShift s.cfg.encBits (s.mem.encOff.get k) w).toInt - (s.enc.last.get k).toInt
      s.enc.resetLast = false ∧ s.enc.noise.get k = 0 ∧ encValid s.cfg.encAccept w = true
        ∧ 16384 < max delta (-delta) ∧ max delta (-delta) ≤ 49152
    holds (encState 0 0 0 0x00020001) ∧ holds (encState (-32768) 0 0 0x00010001) := by decide

/-- EncoderStepsAreIsolated: two states that differ in another sensor. -/
theorem witness_EncoderStepsAreIsolated :
    let s := encState 0 0 0 0x00004001
    let s' := { s with enc := { s.enc with last := ⟨0, 1, 2⟩ } }
    exec .seqEnc s = .next (after (exec .seqEnc s) s) ∧ exec .seqEnc s' = .next (after (exec .seqEnc s') s')
    ∧ s'.seq.idx = s.seq.idx ∧ s'.cfg = s.cfg ∧ s'.enc.resetLast = s.enc.resetLast
    ∧ s'.ports.encWord.get 0 = s.ports.encWord.get 0 ∧ s'.mem.encOff.get 0 = s.mem.encOff.get 0
    ∧ s'.mem.encMult.get 0 = s.mem.encMult.get 0 ∧ s'.enc.last.get 0 = s.enc.last.get 0
    ∧ s'.enc.noise.get 0 = s.enc.noise.get 0 ∧ s'.meas.turns.get 0 = s.meas.turns.get 0
    ∧ s'.meas.pos.get 0 = s.meas.pos.get 0 := ⟨rfl, rfl, rfl, rfl, rfl, rfl, rfl, rfl, rfl, rfl, rfl, rfl⟩

/-- MotorRunsThePositionLoop: both motors, both modes. -/
theorem witness_MotorRunsThePositionLoop :
    (motorState 0 0 100 0 0).seq.idx = (0 : Fin 2).castSucc ∧ (motorState 0 0 100 0 0).mem.ctrlMode = 0
    ∧ (motorState 1 4 100 0 0).seq.idx = (1 : Fin 2).castSucc ∧ (motorState 1 4 100 0 0).mem.ctrlMode = 4 := by decide

/-- MotorRunsTheCurrentLoop. -/
theorem witness_MotorRunsTheCurrentLoop :
    (motorState 1 2 100 0 0).seq.idx = (1 : Fin 2).castSucc ∧ (motorState 1 2 100 0 0).mem.ctrlMode = 2 := by decide

/-- MotorRunsTheCascades: both motors, both modes. -/
theorem witness_MotorRunsTheCascades :
    (motorState 0 3 100 0 0).seq.idx = (0 : Fin 2).castSucc ∧ (motorState 0 3 100 0 0).mem.ctrlMode = 3
    ∧ (motorState 1 5 100 0 0).seq.idx = (1 : Fin 2).castSucc ∧ (motorState 1 5 100 0 0).mem.ctrlMode = 5 := by decide

/-- MotorPwmAndReservedModes: PWM, and the first and the last reserved mode. -/
theorem witness_MotorPwmAndReservedModes :
    (motorState 0 1 100 0 0).seq.idx = (0 : Fin 2).castSucc ∧ (motorState 0 1 100 0 0).mem.ctrlMode = 1
    ∧ 6 ≤ (motorState 0 6 100 0 0).mem.ctrlMode.toNat ∧ 6 ≤ (motorState 0 255 100 0 0).mem.ctrlMode.toNat
    ∧ 0 < boot.cfg.pwmMax := by decide

/-- CalRunsAtTheSubRate and the three calibration statements: the divider one below its wrap and at it, each phase, and the
threshold 300 with 301 above it and 300 not. -/
theorem witness_Calibration :
    ({ calState .stop 0 ⟨0, 0⟩ ⟨0, 0⟩ ⟨0, 0⟩ with calDiv := 98 } : State).calDiv + 1 ≠ boot.cfg.calDiv
    ∧ (∀ p ∈ [CalphCode.stop, .start, .pause1, .continue1, .pause2, .continue2],
        (calState p 2 ⟨0, 0⟩ ⟨0, 0⟩ ⟨301, 300⟩).calDiv + 1 = (calState p 2 ⟨0, 0⟩ ⟨0, 0⟩ ⟨301, 300⟩).cfg.calDiv
        ∧ (calState p 2 ⟨0, 0⟩ ⟨0, 0⟩ ⟨301, 300⟩).cal.phase = p)
    ∧ boot.cfg.calCurrThresh < max (301 : W32).toInt (-(301 : W32).toInt)
    ∧ boot.cfg.calCurrThresh < max (-301 : W32).toInt (-(-301 : W32).toInt)
    ∧ ¬ boot.cfg.calCurrThresh < max (300 : W32).toInt (-(300 : W32).toInt) := by decide

/-- DrainEndsAtItsContinuation: an empty FIFO, and the frame limit with a byte left. -/
theorem witness_DrainEndsAtItsContinuation :
    (frameState .waitStart false 0 0 []).ports.rxFifo = []
    ∧ boot.cfg.framesPerDrain ≤ ({ frameState .waitStart false 0 0 [1] with drainFrames := 6 } : State).drainFrames.toNat := by
  decide

/-- The byte statements of the framer: a byte received, the last frame below the limit, each state, the first and the last
index of the buffer, and the counter at 1 and at 128. -/
theorem witness_FramerBytes :
    (∀ f ∈ [FramerCode.waitStart, .waitId, .waitLength, .receive, .unload],
      let s := { frameState f true 128 127 [0x3A, 1] with drainFrames := 5 }
      s.ports.rxFifo = 0x3A :: [1] ∧ s.drainFrames.toNat < s.cfg.framesPerDrain ∧ s.framer.fstate = f
        ∧ s.framer.fidx.toNat < 128 ∧ memWf s.framer.fbuf = true ∧ memWf s.rxc.buf = true
        ∧ s.framer.fidx + 1 = s.framer.flen ∧ s.framer.unloadCnt.toNat = 1)
    ∧ (frameState .receive true 128 0 [1]).framer.fidx + 1 ≠ 128
    ∧ (frameState .unload false 128 0 [1]).framer.unloadCnt.toNat = 128 := by decide

/-- FramerRowsAreTheDrainStep. -/
theorem witness_FramerRowsAreTheDrainStep :
    (frameState .receive true 128 127 []).ports.rxFifo = []
    ∧ (frameState .receive true 128 127 [1]).framer.fstate = .receive
    ∧ (frameState .receive true 128 127 [1]).ports.rxFifo ≠ []
    ∧ (frameState .receive true 128 127 [1]).framer.fidx.toNat < 128 := by decide

/-- ModeAndInputRowsAreTheBodies. -/
theorem witness_ModeAndInputRowsAreTheBodies :
    (motorState 0 0 0 0 0).seq.idx = (0 : Fin 2).castSucc ∧ (motorState 1 0 0 0 0).seq.idx = (1 : Fin 2).castSucc := by decide

/-- CalphRowsAreTheInvocation. -/
theorem witness_CalphRowsAreTheInvocation :
    (calState .pause1 0 ⟨0, 0⟩ ⟨0, 0⟩ ⟨0, 0⟩).cal.phase = .pause1 ∧ 1 ≤ boot.cfg.calDiv := by decide

/-- DecodeOfEncode and EncodeOfDecode. -/
theorem witness_Encodings :
    (Instr.enc 2 0xFFFFFFFF).wellFormed = true ∧ decode (.txn 0x04020000FFFFFFFF) = .ok (.enc 2 0xFFFFFFFF) := ⟨rfl, rfl⟩

/-- SampleWordsDecode: the first and the last code of each family that decodes to none. -/
theorem witness_SampleWordsDecode :
    (14 ≤ (14 : BitVec 5).toNat ∧ 14 ≤ (31 : BitVec 5).toNat) ∧ (5 ≤ (5 : BitVec 3).toNat ∧ 5 ≤ (7 : BitVec 3).toNat)
    ∧ (6 ≤ (6 : BitVec 8).toNat ∧ 6 ≤ (255 : BitVec 8).toNat) ∧ (2 ≤ (2 : BitVec 8).toNat ∧ 2 ≤ (255 : BitVec 8).toNat)
    ∧ (6 ≤ (6 : BitVec 3).toNat ∧ 6 ≤ (7 : BitVec 3).toNat) := by decide

/-- StepRunsTheDecodedInstruction and StepWithoutAnInstruction. -/
theorem witness_Step :
    boot.cfg.valid = true ∧ ({ boot with txns := [stepWord] } : State).txns = stepWord :: []
    ∧ decode (.txn stepWord) = .ok .step ∧ boot.txns = [] ∧ ¬ TxnWellFormed 0x0403000000000000
    ∧ ({ boot.cfg with calDiv := 0 } : Config).valid = false := by
  refine ⟨by decide, rfl, rfl, rfl, by unfold TxnWellFormed; decide, by decide⟩

/-- StepWithoutAnInstruction: the test instance breaks neither list. -/
theorem witness_valid_parameters : ¬ BreaksR11 boot.cfg ∧ ¬ BreaksRanges boot.cfg :=
  ⟨(constraintsOk_iff _).1 (by decide), (rangesOk_iff _ (by decide)).1 (by decide)⟩

/-- StepWithoutAnInstruction: for every constraint of R11 and R19 a set one beyond its bound. -/
theorem witness_BreaksR11 :
    let c := boot.cfg
    ∀ d ∈ ([{ c with encBits := 17 }, { c with encShift := 21 }, { c with vHi := 8000 }, { c with vStep := 0 },
        { c with derateTable := [101] }, { c with derateTable := [99, 100] }, { c with derateTable := [100] },
        { c with filtShift := 31 }, { c with filtAlpha := -1 }, { c with filtAlpha := 1025 },
        { c with querySeq := ⟨0, 0x3A, 0x3A⟩ }, { c with pwmMax := 32768 }, { c with pPreshift := 9 }] : List Config),
      BreaksR11 d := by
  have other (d : Config) (h : d.constraintsOk = false) : BreaksR11 d := by
    by_contra hn
    simp [(constraintsOk_iff d).2 hn] at h
  intro c d hd
  refine other d ?_
  revert d
  decide

/-- StepWithoutAnInstruction: for every range of log 9 a set one beyond its bound that breaks nothing of R11. -/
theorem witness_BreaksRanges :
    let c := boot.cfg
    ∀ d ∈ ([{ c with encShift := 32, encBits := 0 }, { c with encBits := 0 }, { c with pThresh := -1 }, { c with posIntSat := 0 },
        { c with currIntSat := 0 }, { c with pwmMax := 0 }, { c with vSh := 32 }, { c with iSh := 32 },
        { c with vGain := 2 ^ 31 }, { c with calStep := -(2 ^ 31) - 1 }, { c with pause1Ticks := 0 },
        { c with pause2Ticks := 0 }, { c with framesPerDrain := 8 }, { c with calDiv := 0 }] : List Config),
      BreaksRanges d ∧ ¬ BreaksR11 d := by
  have both (d : Config) (h : d.pwmMax < 2 ^ 15 ∧ d.rangesOk = false ∧ d.constraintsOk = true) :
      BreaksRanges d ∧ ¬ BreaksR11 d := by
    refine ⟨?_, (constraintsOk_iff d).1 h.2.2⟩
    by_contra hn
    simp [(rangesOk_iff d h.1).2 hn] at h
  intro c d hd
  refine both d ?_
  revert d
  decide

/-- NoInstructionRaisesAnException and StopsOutsideTheRegisterRanges: the last index on each side, and sensor 2, of which
neither asks anything outside a motor step. -/
theorem witness_Stops :
    ((State.withPos boot .motor 1).seq.idx ≠ 2 ∧ (frameState .receive true 128 127 [1]).framer.fidx.toNat < 128)
    ∧ (let s := State.withPos boot .enc 2
       ¬(Instr.seqEnc ∈ [.seqMotor, .modePosition, .modePwm, .modeCurrent, .modePosCurr, .modeDeflection, .modeDeflCurr]
          ∨ (Instr.seqEnc = .step ∧ s.seq.code = .motor)) ∧ s.ports.rxFifo = [])
    ∧ (State.withPos boot .motor 2).seq.code = .motor ∧ (frameState .receive true 0 128 [1]).seq.code = .drain
    ∧ (State.withPos boot .motor 2).seq.idx = 2
    ∧ 128 ≤ (frameState .receive true 0 128 [1]).framer.fidx.toNat ∧ (frameState .receive true 0 128 [1]).ports.rxFifo ≠ []
    ∧ (frameState .receive true 0 128 [1]).framer.fstate = .receive
    ∧ (frameState .receive true 0 128 [1]).drainFrames.toNat < boot.cfg.framesPerDrain := by decide

/-- WritersOfMem: a host write and a capture that change Mem. -/
theorem witness_WritersOfMem :
    let c := calState .continue1 0 ⟨0, 0⟩ ⟨5, 6⟩ ⟨301, 0⟩
    (exec (.wr 0x00 1) boot = .next (after (exec (.wr 0x00 1) boot) boot) ∧ (after (exec (.wr 0x00 1) boot) boot).mem ≠ boot.mem)
    ∧ exec .seqCal c = .next (after (exec .seqCal c) c) ∧ (after (exec .seqCal c) c).mem ≠ c.mem :=
  ⟨⟨rfl, by decide⟩, rfl, by decide⟩

/-- WritersOfCommittedReferences: a SWAP, and an override. -/
theorem witness_WritersOfCommittedReferences :
    let s := State.withPos boot .swap 0
    let o := { State.withPos boot .inputOvr 0 with mem := { boot.mem with inputMode := 1 } }
    exec .step s = .next (after (exec .step s) s) ∧ (Instr.step = .step ∧ s.seq.code = .swap)
    ∧ exec .step o = .next (after (exec .step o) o) ∧ ¬(Instr.step = .seqSwap ∨ (Instr.step = .step ∧ o.seq.code = .swap)) :=
  ⟨rfl, by decide, rfl, by decide⟩

/-- AccumulatorsSurviveModeChanges: a motor step that changes them, and a mode write, after which they stand. -/
theorem witness_AccumulatorsSurviveModeChanges :
    let s := motorState 0 0 0 1 0
    exec .seqMotor s = .next (after (exec .seqMotor s) s) ∧ (after (exec .seqMotor s) s).pid ≠ s.pid
    ∧ exec (.wr 0 4) boot = .next (after (exec (.wr 0 4) boot) boot) := ⟨rfl, by decide, rfl⟩

/-- TicksStartOnlyFromIdle: a state of the invariant whose step starts a tick. -/
theorem witness_TicksStartOnlyFromIdle :
    let s := { ticking with txns := [stepWord] }
    Legal s ∧ step s = .next (after (step s) s) ∧ (after (step s) s).seq.code = .adcStart ∧ s.seq.code ≠ .adcStart :=
  ⟨{ witness_legal with flowctl := rfl }, rfl, by decide, by decide⟩

/-- OnlyHdoneOrResetLeavesACallback: a received byte while the core holds. -/
theorem witness_OnlyHdoneOrResetLeavesACallback :
    let s := { State.withPos boot .callback 0 with txns := [0x0300000000000055] }
    s.seq.code = .callback ∧ step s = .next (after (step s) s)
    ∧ ∀ w rest, s.txns = w :: rest → decode (.txn w) ≠ .ok .reset ∧ decode (.txn w) ≠ .ok .hdone := by
  refine ⟨rfl, rfl, ?_⟩
  intro w rest h
  injection h with h1 h2
  subst h1
  exact ⟨by decide, by decide⟩

/-- Continue1HasNoTimeout: a capture, through STEP in CAL. -/
theorem witness_Continue1HasNoTimeout :
    let s := { calState .continue1 0 ⟨0, 0⟩ ⟨5, 6⟩ ⟨301, 0⟩ with txns := [stepWord] }
    step s = .next (after (step s) s) ∧ s.cal.phase = .continue1 ∧ (after (step s) s).cal.phase ≠ .continue1 :=
  ⟨rfl, by decide, by decide⟩

/-- TheTraceOnlyGrows. -/
theorem witness_TheTraceOnlyGrows : exec .seqAdcStart boot = .next (after (exec .seqAdcStart boot) boot) := rfl

/-- DefaultTableAcceptsEvenParity: another table than the default one (V-NUM: the hash of 12345678 is 8), valid words, the
first and the last bit flipped. -/
theorem witness_DefaultTableAcceptsEvenParity :
    (encValid 0x0100 0x12345678 = true ∧ encValid 0xFEFF 0x12345678 = false) ∧
    encValid 0x9669 0x00000003 = true ∧ encValid 0x9669 (0x00000003 ^^^ BitVec.twoPow 32 0) = false
    ∧ encValid 0x9669 (0x00000003 ^^^ BitVec.twoPow 32 31) = false
    ∧ encValid 0x9669 (0x00000003 ^^^ BitVec.twoPow 32 0 ^^^ BitVec.twoPow 32 31) = true := by decide

/-- FilterStaysBetween: alpha at both ends, a falling and a rising input. -/
theorem witness_FilterStaysBetween :
    ((0 : Int) ≤ 0 ∧ (0 : Int) ≤ 2 ^ 10) ∧ ((0 : Int) ≤ 1024 ∧ (1024 : Int) ≤ 2 ^ 10) ∧ ((0 : Int) < 32 ∧ (0 : Int) < 1000)
    ∧ ((969 : Int) < 1000 ∧ ((1000 : Int) - 969) * 32 < 2 ^ 10) := by decide

/-- DeratingLaws: valid parameters, and voltages at the edges of the three ranges. -/
theorem witness_DeratingLaws :
    boot.cfg.valid = true ∧ (7999 : Int) < boot.cfg.vLo ∧ boot.cfg.vHi ≤ 26000
    ∧ (boot.cfg.vLo ≤ 8000 ∧ (8000 : Int) < boot.cfg.vHi) ∧ (boot.cfg.vLo ≤ 25999 ∧ (25999 : Int) < boot.cfg.vHi) := by decide

/-- OrderOfAnEmptyTick. -/
theorem witness_OrderOfAnEmptyTick :
    ticking.seq.code = .idle ∧ ticking.tickPending = true ∧ ticking.rxEnabled = true ∧ ticking.rxFlag = false
    ∧ ticking.ports.rxFifo = [] := by decide

/-- OwnFrameIsDispatched: a broadcast of the shortest frame, and a frame of the greatest length. -/
theorem witness_OwnFrameIsDispatched :
    let s (l : Byte) (p : List Byte) := frameState .waitStart false 0 0 (0x3A :: 0x3A :: 0 :: l :: (p ++ [9]))
    (s 2 [7, 8]).seq.code = .drain ∧ (s 2 [7, 8]).framer.fstate = .waitStart
    ∧ (s 2 [7, 8]).drainFrames.toNat < boot.cfg.framesPerDrain ∧ (s 2 [7, 8]).framer.win.a2 ≠ boot.cfg.startMark
    ∧ (⟨(s 2 [7, 8]).framer.win.a1, (s 2 [7, 8]).framer.win.a2, boot.cfg.startMark⟩ : Three Byte) ≠ boot.cfg.querySeq
    ∧ (0 : Byte) = boot.cfg.broadcastAddr ∧ 2 ≤ (2 : Byte).toNat ∧ (128 : Byte).toNat ≤ maxFrame
    ∧ memWf (s 2 [7, 8]).framer.fbuf = true ∧ memWf (s 2 [7, 8]).rxc.buf = true
    ∧ (s 2 [7, 8]).ports.rxFifo = boot.cfg.startMark :: boot.cfg.startMark :: 0 :: 2 :: ([7, 8] ++ [9])
    ∧ (List.replicate 128 (1 : Byte)).length = (128 : Byte).toNat :=
  ⟨rfl, rfl, by decide, by decide, by decide, rfl, by decide, by decide, rfl, rfl, rfl, List.length_replicate⟩

/-- ForeignFrameIsSkipped. -/
theorem witness_ForeignFrameIsSkipped :
    let s := frameState .waitStart false 0 0 [0x3A, 0x3A, 7, 2, 0x3A, 0x3A, 9]
    s.seq.code = .drain ∧ s.framer.fstate = .waitStart ∧ s.drainFrames.toNat < s.cfg.framesPerDrain
    ∧ s.framer.win.a2 ≠ s.cfg.startMark
    ∧ (⟨s.framer.win.a1, s.framer.win.a2, s.cfg.startMark⟩ : Three Byte) ≠ s.cfg.querySeq
    ∧ (7 : Byte) ≠ s.mem.nodeAddr ∧ (7 : Byte) ≠ s.cfg.broadcastAddr
    ∧ s.ports.rxFifo = s.cfg.startMark :: s.cfg.startMark :: 7 :: 2 :: ([0x3A, 0x3A] ++ [9]) := by decide

end Sys2Proof.Tests
end

/-! Settling the statements of the family 00_scope.md: the output trace only grows (R16), and the model's own fields, the
parameters and the transactions to come, are kept (70_reset_and_hazards.md R410). -/

namespace Sys2Proof.Machine

open Sys2Proof

/-! ### The relation between a state and a later one -/

/-- `t` may follow `s`: events are only appended to the trace, and the model's own fields are those of `s`. -/
structure State.Extends (s t : State) : Prop where
  trace : s.trace <+: t.trace
  cfg   : t.cfg = s.cfg
  txns  : t.txns = s.txns

/-- An outcome from `s` that, when it is a next state, extends `s`; a fault or a refusal gives no state. -/
def Result.Extends (s : State) (r : Result) : Prop := ∀ t, r = .next t → s.Extends t

theorem State.Extends.of_trace_eq {s t : State} (ht : t.trace = s.trace) (hc : t.cfg = s.cfg) (hx : t.txns = s.txns) :
    s.Extends t :=
  ⟨ht ▸ List.prefix_rfl, hc, hx⟩

theorem State.Extends.refl (s : State) : s.Extends s := .of_trace_eq rfl rfl rfl

theorem State.Extends.trans {s t u : State} (h : s.Extends t) (h' : t.Extends u) : s.Extends u :=
  ⟨h.trace.trans h'.trace, h'.cfg.trans h.cfg, h'.txns.trans h.txns⟩

theorem State.Extends.ite {s t u : State} {p : Prop} [Decidable p] (ht : s.Extends t) (hu : s.Extends u) :
    s.Extends (if p then t else u) := by
  split
  · exact ht
  · exact hu

theorem Result.extends_next {s t : State} (h : s.Extends t) : Result.Extends s (.next t) := by
  rintro u ⟨⟩
  exact h

theorem Result.extends_fault (s : State) (f : Fault) : Result.Extends s (.fault f) := by
  rintro u ⟨⟩

/-! ### The shared operations -/

theorem extends_goto (s : State) (p : SeqPos) : s.Extends (s.goto p) := .of_trace_eq rfl rfl rfl

theorem extends_gotoCode (s : State) (c : SeqCode) : s.Extends (s.gotoCode c) := .of_trace_eq rfl rfl rfl

theorem extends_emit (s : State) (e : Event) : s.Extends (s.emit e) := ⟨List.prefix_append _ _, rfl, rfl⟩

theorem State.Extends.gotoCode {s t : State} (h : s.Extends t) (c : SeqCode) : s.Extends (t.gotoCode c) :=
  h.trans (extends_gotoCode t c)

theorem State.Extends.emit {s t : State} (h : s.Extends t) (e : Event) : s.Extends (t.emit e) :=
  h.trans (extends_emit t e)

theorem extends_enterDrain (p : SeqPos) (s : State) : s.Extends (enterDrain p s) := by
  rw [enterDrain_eq]
  exact .ite (.of_trace_eq rfl rfl rfl) (.of_trace_eq rfl rfl rfl)

theorem extends_poll (p : SeqPos) (s : State) : s.Extends (poll p s) := .ite (extends_enterDrain p s) (extends_goto s p)

theorem extends_fifoPush (s : State) (b : Byte) : s.Extends (s.fifoPush b) := by
  rw [fifoPush_eq]
  exact .ite (.of_trace_eq rfl rfl rfl) (.refl s)

theorem extends_of_fifoPop {s t : State} {b : Byte} (h : s.fifoPop = some (b, t)) : s.Extends t := by
  obtain ⟨rest, -, rfl⟩ := fifoPop_spec h
  exact .of_trace_eq rfl rfl rfl

/-! ### The host registers -/

/-- A register write changes the configuration, the pending references, the session or a flag, and emits nothing
(47_host_interface.md R361 to R364). -/
theorem extends_writeReg (r : Reg) (v : W32) (s : State) : s.Extends (writeReg r v s) := by
  cases r with
  | cmdCalStart => exact .ite (.of_trace_eq rfl rfl rfl) (.refl s)
  | cmdResetLast => exact .ite (.of_trace_eq rfl rfl rfl) (.refl s)
  | rxReady => exact .ite (.refl s) (.of_trace_eq rfl rfl rfl)
  | _ => exact .of_trace_eq rfl rfl rfl

theorem extends_regWrite (a : Byte) (v : W32) (s : State) : s.Extends (regWrite a v s) := by
  unfold regWrite
  split
  · next r _ => exact extends_writeReg r v s
  · exact .refl s

/-! ### The encoder and the analog front-end -/

theorem extends_encoderUpdate (k : Fin 3) (s : State) : s.Extends (encoderUpdate k s) := by
  have hclear : s.Extends (clearLast s) := by
    rw [clearLast_eq]
    exact .of_trace_eq rfl rfl rfl
  have hunwrap (raw : W16) (u : State) : u.Extends (unwrapSample k raw u) := by
    obtain ⟨n, l, t, p, h⟩ := unwrapSample_frame k raw u
    rw [h]
    exact .of_trace_eq rfl rfl rfl
  exact .ite (hclear.trans (hunwrap _ _)) hclear

theorem extends_analogFrontEnd (s : State) : s.Extends (analogFrontEnd s) := by
  rw [analogFrontEnd_frame]
  exact .of_trace_eq rfl rfl rfl

/-! ### The motors -/

/-- A motor step appends the one event of its output stage (44_motor_control.md R270, R294). -/
theorem extends_motorStepIn (c : Option ModeCode) (m : Fin 2) (s : State) : s.Extends (motorStepIn c m s) := by
  have hmode : s.Extends (modeCommand c m s).2 := by
    rw [modeCommand_frame]
    exact .of_trace_eq rfl rfl rfl
  exact hmode.trans ⟨List.prefix_append _ _, rfl, rfl⟩

theorem extends_onMotor {f : Fin 2 → State → State} {s : State} (h : ∀ m, s.Extends (f m s)) :
    Result.Extends s (onMotor f s) := by
  unfold onMotor
  split
  · next m _ => exact Result.extends_next (h m)
  · exact Result.extends_fault s _

theorem extends_overrideRefs (s : State) : s.Extends (overrideRefs s) := .of_trace_eq rfl rfl rfl

theorem extends_inputOverride (s : State) : s.Extends (inputOverride s) := by
  rw [inputOverride_eq]
  exact .ite (extends_overrideRefs s) (.refl s)

/-! ### Calibration -/

theorem extends_calCheck (s : State) : s.Extends (calCheck s) := by
  have hcapture (o : Fin 2) : s.Extends (calCapture o s) := .of_trace_eq rfl rfl rfl
  rcases calCheck_cases s with ⟨-, h⟩ | ⟨-, -, h⟩ | ⟨-, -, h⟩ <;> rw [h]
  · exact hcapture 1
  · exact hcapture 0
  · exact .refl s

theorem extends_calContinue1 (s : State) : s.Extends (calContinue1 s) := by
  have hsweep : s.Extends (calSweep s) := .of_trace_eq rfl rfl rfl
  exact hsweep.trans (extends_calCheck _)

/-- A phase body appends nothing, but for the two stores of CONTINUE2 (46_calibration.md R336). -/
theorem extends_calPhaseBody (p : CalphCode) (s : State) : s.Extends (calPhaseBody p s) := by
  cases p with
  | stop => exact .refl s
  | start => exact .of_trace_eq rfl rfl rfl
  | pause1 | pause2 => exact .ite (.of_trace_eq rfl rfl rfl) (.of_trace_eq rfl rfl rfl)
  | continue1 => exact extends_calContinue1 s
  | continue2 =>
    have hstores := ((State.Extends.refl s).emit (.store s.cfg.regionDefault s.mem)).emit (.store s.cfg.regionActive s.mem)
    exact ⟨hstores.trace, rfl, rfl⟩

theorem extends_calTick (s : State) : s.Extends (calTick s) := by
  have hdiv (n : Nat) : s.Extends { s with calDiv := n } := .of_trace_eq rfl rfl rfl
  rcases calTick_cases s with ⟨-, h⟩ | ⟨-, h⟩ <;> rw [h]
  · exact (hdiv 0).trans (extends_calPhaseBody _ _)
  · exact hdiv _

/-! ### The framer -/

theorem extends_waitStartByte (b : Byte) (s : State) : s.Extends (waitStartByte b s) :=
  .ite (.of_trace_eq rfl rfl rfl) (.ite ⟨List.prefix_append _ _, rfl, rfl⟩ (.of_trace_eq rfl rfl rfl))

theorem extends_waitLengthByte (b : Byte) (s : State) : s.Extends (waitLengthByte b s) :=
  .ite (.of_trace_eq rfl rfl rfl) (.ite (.of_trace_eq rfl rfl rfl) (.of_trace_eq rfl rfl rfl))

/-- A payload byte is stored, the last one emits the frame's event, and one with no place in the buffer faults
(41_framer.md R206, R207). -/
theorem extends_receiveByte (b : Byte) (s : State) : Result.Extends s (receiveByte b s) := by
  unfold receiveByte
  split
  · exact Result.extends_next (.ite ⟨List.prefix_append _ _, rfl, rfl⟩ (.of_trace_eq rfl rfl rfl))
  · exact Result.extends_fault s _

theorem extends_unloadByte (s : State) : s.Extends (unloadByte s) :=
  .ite ⟨List.prefix_append _ _, rfl, rfl⟩ (.of_trace_eq rfl rfl rfl)

theorem extends_framerByteIn (f : FramerCode) (b : Byte) (s : State) : Result.Extends s (framerByteIn f b s) := by
  cases f with
  | waitStart => exact Result.extends_next (extends_waitStartByte b s)
  | waitId => exact Result.extends_next (.of_trace_eq rfl rfl rfl)
  | waitLength => exact Result.extends_next (extends_waitLengthByte b s)
  | receive => exact extends_receiveByte b s
  | unload => exact Result.extends_next (extends_unloadByte s)

/-- A byte step on what a pop leaves extends the state before the pop. -/
theorem extends_framerByteIn_of_fifoPop {s u : State} {b : Byte} (h : s.fifoPop = some (b, u)) (f : FramerCode) :
    Result.Extends s (framerByteIn f b u) :=
  fun t ht => (extends_of_fifoPop h).trans (extends_framerByteIn f b u t ht)

theorem extends_framerInstr (f : FramerCode) (s : State) : Result.Extends s (framerInstr f s) := by
  unfold framerInstr
  split
  · next h => exact extends_framerByteIn_of_fifoPop h f
  · exact Result.extends_next (.refl s)

theorem extends_drainStep (s : State) : Result.Extends s (drainStep s) := by
  have hend : Result.Extends s (.next (drainEnd s)) := Result.extends_next (extends_goto s s.drainRet)
  unfold drainStep
  split
  · split
    · next h => exact extends_framerByteIn_of_fifoPop h _
    · exact hend
  · exact hend

/-! ### The scheduler -/

theorem extends_snapshotSwap (s : State) : s.Extends (snapshotSwap s) := ⟨List.prefix_append _ _, rfl, rfl⟩

theorem extends_execSeqIdle (s : State) : Result.Extends s (execSeqIdle s) :=
  Result.extends_next (.ite (.of_trace_eq rfl rfl rfl) (.refl s))

theorem extends_execSeqMotor (s : State) : Result.Extends s (execSeqMotor s) :=
  extends_onMotor (f := fun m t => (motorControl m t).gotoCode .pollD) fun m => (extends_motorStepIn _ m s).gotoCode .pollD

theorem extends_execSeqAdcWait (s : State) : Result.Extends s (execSeqAdcWait s) :=
  Result.extends_next (.ite (extends_gotoCode s _) (.ite (extends_enterDrain _ s) (.refl s)))

/-- The micro-operation of every sequencer position extends the state (30_encoding.md R140). -/
theorem extends_microOp (c : SeqCode) (s : State) : Result.Extends s (microOp c s) := by
  cases c with
  | idle => exact extends_execSeqIdle s
  | adcStart => exact Result.extends_next ⟨List.prefix_append _ _, rfl, rfl⟩
  | drainB => exact Result.extends_next (extends_enterDrain _ s)
  | enc => exact Result.extends_next ((extends_encoderUpdate _ s).gotoCode _)
  | pollC | pollD => exact Result.extends_next (extends_poll _ s)
  | inputOvr => exact Result.extends_next ((extends_inputOverride s).trans (extends_goto _ _))
  | motor => exact extends_execSeqMotor s
  | adcWait => exact extends_execSeqAdcWait s
  | afe => exact Result.extends_next ((extends_analogFrontEnd s).gotoCode _)
  | cal => exact Result.extends_next ((extends_calTick s).gotoCode _)
  | swap => exact Result.extends_next (((extends_snapshotSwap s).emit _).gotoCode _)
  | drain => exact extends_drainStep s
  | callback => exact Result.extends_next (.refl s)

/-! ### The transactions -/

/-- RESET gives every register its reset value, but keeps the trace and the model's fields (70_reset_and_hazards.md R410). -/
theorem extends_execReset (s : State) : Result.Extends s (execReset s) :=
  Result.extends_next (.of_trace_eq rfl rfl rfl)

theorem extends_execEnc (k : Byte) (w : W32) (s : State) : Result.Extends s (execEnc k w s) := by
  unfold execEnc
  split
  · exact Result.extends_next (.of_trace_eq rfl rfl rfl)
  · exact Result.extends_next (.refl s)

theorem extends_execAdc (c : Byte) (v : W16) (s : State) : Result.Extends s (execAdc c v s) := by
  unfold execAdc
  split
  · exact Result.extends_next (.of_trace_eq rfl rfl rfl)
  · exact Result.extends_next (.refl s)

/-- No instruction takes an event off the trace or changes the model's fields: the TXN rows one by one, and every row of
the code formats by the body it shares with the micro-operations. -/
theorem extends_exec (i : Instr) (s : State) : Result.Extends s (exec i s) := by
  cases i with
  | reset => exact extends_execReset s
  | timer | adcdone => exact Result.extends_next (.of_trace_eq rfl rfl rfl)
  | rxb b => exact Result.extends_next ((extends_fifoPush s b).trans (.of_trace_eq rfl rfl rfl))
  | enc k w => exact extends_execEnc k w s
  | adc c v => exact extends_execAdc c v s
  | wr a v => exact Result.extends_next (.ite (extends_regWrite a v s) (.refl s))
  | rd a => exact Result.extends_next (.ite (extends_emit s _) (.refl s))
  | hdone => exact Result.extends_next (.ite (.of_trace_eq rfl rfl rfl) (.refl s))
  | step => exact extends_microOp s.seq.code s
  | seqIdle => exact extends_microOp .idle s
  | seqAdcStart => exact extends_microOp .adcStart s
  | seqDrainB => exact extends_microOp .drainB s
  | seqEnc => exact extends_microOp .enc s
  | seqPollC => exact extends_microOp .pollC s
  | seqInputOvr => exact extends_microOp .inputOvr s
  | seqMotor => exact extends_microOp .motor s
  | seqPollD => exact extends_microOp .pollD s
  | seqAdcWait => exact extends_microOp .adcWait s
  | seqAfe => exact extends_microOp .afe s
  | seqCal => exact extends_microOp .cal s
  | seqSwap => exact extends_microOp .swap s
  | seqDrain => exact extends_microOp .drain s
  | seqCallback => exact extends_microOp .callback s
  | framerWaitStart | framerWaitId | framerWaitLength | framerReceive | framerUnload => exact extends_framerInstr _ s
  | modePosition | modePwm | modeCurrent | modePosCurr | modeDeflection | modeDeflCurr =>
    exact extends_onMotor fun m => extends_motorStepIn _ m s
  | inputExternal => exact Result.extends_next (.refl s)
  | inputEncoder3 => exact Result.extends_next (extends_overrideRefs s)
  | calphStop | calphStart | calphPause1 | calphContinue1 | calphPause2 | calphContinue2 =>
    exact Result.extends_next (extends_calPhaseBody _ s)

/-- Settles O52: the fields of the relation every instruction keeps (`extends_exec`). -/
theorem theTraceOnlyGrows : Obligations.TheTraceOnlyGrows := by
  intro i s t h
  obtain ⟨htrace, hcfg, htxns⟩ := extends_exec i s t h
  exact ⟨htrace, hcfg, htxns⟩

end Sys2Proof.Machine

/-! Settling the statements of the family 10_state.md: the register map (R56, R57), a host write and its read back, and the
writers of the configuration (R44), of the committed references and of the snapshots (R40, R42). -/

namespace Sys2Proof

theorem Two.get_set_ne {α : Type} (t : Two α) {m j : Fin 2} (h : j ≠ m) (v : α) : (t.set m v).get j = t.get j :=
  (t.get_set m j v).trans (if_neg h)

theorem Three.get_set_ne {α : Type} (t : Three α) {k j : Fin 3} (h : j ≠ k) (v : α) : (t.set k v).get j = t.get j :=
  (t.get_set k j v).trans (if_neg h)

theorem setWidth_ofBool (b : Bool) : (BitVec.ofBool b).setWidth 32 = if b then 1 else 0 := by
  cases b <;> rfl

/-- The low `n` bits of a word, as the mask a statement writes. -/
theorem setWidth_setWidth_eq_and {n : Nat} (h : n ≤ 32) (v : W32) :
    (v.setWidth n).setWidth 32 = v &&& BitVec.ofNat 32 (2 ^ n - 1) := by
  apply BitVec.eq_of_toNat_eq
  have hn : 2 ^ n ≤ 2 ^ 32 := Nat.pow_le_pow_right (by decide) h
  have hv : v.toNat % 2 ^ n < 2 ^ 32 := (Nat.mod_lt _ (by positivity)).trans_le hn
  rw [BitVec.toNat_and, BitVec.toNat_ofNat, Nat.mod_eq_of_lt (by omega), Nat.and_two_pow_sub_one_eq_mod,
    BitVec.toNat_setWidth, BitVec.toNat_setWidth, Nat.mod_eq_of_lt hv]

end Sys2Proof

namespace Sys2Proof.Machine

open Sys2Proof

/-! ### The addresses of the registers -/

/-- The address of a gain set's first term (10_state.md R56). -/
def GainSet.addr : GainSet → Byte
  | .pos => 0x10
  | .defl => 0x13
  | .curr => 0x16
  | .dcurr => 0x19

/-- The place of a term in its gain set (10_state.md R56). -/
def GainTerm.offset : GainTerm → Byte
  | .kp => 0
  | .ki => 1
  | .kd => 2

/-- The address of a register, the inverse of `regAt` (10_state.md R56). -/
def Reg.addr : Reg → Byte
  | .ctrlMode => 0x00
  | .inputMode => 0x01
  | .nodeAddr => 0x02
  | .posLimEn => 0x03
  | .posLimInf m => 0x04 + BitVec.ofNat 8 m
  | .posLimSup m => 0x06 + BitVec.ofNat 8 m
  | .currLimit => 0x08
  | .maxStiff => 0x09
  | .gain g t => g.addr + t.offset
  | .encOff k => 0x20 + BitVec.ofNat 8 k
  | .encMult k => 0x24 + BitVec.ofNat 8 k
  | .refPendPos m => 0x30 + BitVec.ofNat 8 m
  | .refPendOnoff => 0x32
  | .refPos m => 0x34 + BitVec.ofNat 8 m
  | .refOnoff => 0x36
  | .refPrevPos m => 0x38 + BitVec.ofNat 8 m
  | .refPrevOnoff => 0x3A
  | .measPos k => 0x40 + BitVec.ofNat 8 k
  | .measCurr m => 0x44 + BitVec.ofNat 8 m
  | .measVolt => 0x46
  | .measTurns k => 0x48 + BitVec.ofNat 8 k
  | .prevPos k => 0x50 + BitVec.ofNat 8 k
  | .prevCurr m => 0x54 + BitVec.ofNat 8 m
  | .prevVolt => 0x56
  | .prevTurns k => 0x58 + BitVec.ofNat 8 k
  | .pwmLimit => 0x60
  | .pwmOut m => 0x61 + BitVec.ofNat 8 m
  | .calStatus => 0x63
  | .framerStatus => 0x64
  | .flags => 0x65
  | .cmdCalStart => 0x70
  | .cmdResetLast => 0x71
  | .rxLen => 0x78
  | .rxReady => 0x79
  | .rxBuf j => 0x80 + j.setWidth 8

/-- The registers of the 28 fields of Mem (10_state.md R43). -/
def Reg.isConfig : Reg → Bool
  | .ctrlMode | .inputMode | .nodeAddr | .posLimEn | .posLimInf _ | .posLimSup _ | .currLimit | .maxStiff => true
  | .gain _ _ | .encOff _ | .encMult _ => true
  | _ => false

/-- The registers of the pending references (10_state.md R40). -/
def Reg.isPending : Reg → Bool
  | .refPendPos _ | .refPendOnoff => true
  | _ => false

/-- The read-write registers: a write is kept in the register's own field (10_state.md R56). -/
def Reg.isReadWrite (r : Reg) : Bool := r.isConfig || r.isPending

theorem addr_of_regAt {a : Byte} {r : Reg} (h : regAt a = some r) : r.addr = a := by
  have key : ∀ a : Byte, ∀ r ∈ regAt a, r.addr = a := by decide
  exact key a r h

theorem regAt_injective {a b : Byte} {r : Reg} (ha : regAt a = some r) (hb : regAt b = some r) : a = b :=
  (addr_of_regAt ha).symm.trans (addr_of_regAt hb)

theorem regAt_rxBuf (j : Fin 32) : regAt (BitVec.ofNat 8 (0x80 + j.val)) = some (.rxBuf (BitVec.ofNat 5 j.val)) := by
  revert j; decide

/-- A register stands at a mapped address, or in the 32 words of RX_BUF (10_state.md R56). -/
theorem addr_mapped (r : Reg) : r.addr.toNat ∈ mappedAddresses ∨ r.addr.toNat / 32 = 4 := by
  cases r with
  | posLimInf m | posLimSup m | refPendPos m | refPos m | refPrevPos m | measCurr m | prevCurr m | pwmOut m =>
    revert m; decide
  | encOff k | encMult k | measPos k | measTurns k | prevPos k | prevTurns k => revert k; decide
  | gain g t => cases g <;> cases t <;> decide
  | rxBuf j => revert j; decide
  | _ => decide

theorem regAt_reserved {a : Byte} (hmap : a.toNat ∉ mappedAddresses) (hbuf : a.toNat / 32 ≠ 4) : regAt a = none := by
  cases h : regAt a with
  | none => rfl
  | some r =>
    rcases addr_of_regAt h ▸ addr_mapped r with hr | hr
    · exact absurd hr hmap
    · exact absurd hr hbuf

/-- A Mem field stands at an address of a Mem field. -/
theorem isConfig_addr {r : Reg} (h : r.isConfig = true) : r.addr.toNat ∈ memAddresses := by
  cases r with
  | ctrlMode | inputMode | nodeAddr | posLimEn | currLimit | maxStiff => decide
  | posLimInf m | posLimSup m => revert m; decide
  | encOff k | encMult k => revert k; decide
  | gain g t => cases g <;> cases t <;> decide
  | _ => cases h

/-- At the addresses of the Mem fields and the pending references stand read-write registers. -/
theorem regAt_readWrite {a : Byte} (h : a.toNat ∈ memAddresses ++ [0x30, 0x31, 0x32]) :
    ∃ r, regAt a = some r ∧ r.isReadWrite = true := by
  have key : ∀ n ∈ memAddresses ++ [0x30, 0x31, 0x32],
      ∃ r ∈ regAt (BitVec.ofNat 8 n), r.isReadWrite = true := by decide
  simpa using key a.toNat h

theorem regRead_of_regAt {a : Byte} {r : Reg} (h : regAt a = some r) (s : State) : regRead a s = readReg r s := by
  simp only [regRead, h]

theorem regRead_of_reserved {a : Byte} (h : regAt a = none) (s : State) : regRead a s = 0 := by
  simp only [regRead, h]

theorem regWrite_of_regAt {a : Byte} {r : Reg} (h : regAt a = some r) (v : W32) (s : State) :
    regWrite a v s = writeReg r v s := by
  simp only [regWrite, h]

theorem regWrite_of_reserved {a : Byte} (h : regAt a = none) (v : W32) (s : State) : regWrite a v s = s := by
  simp only [regWrite, h]

/-! ### What a register reads as -/

theorem regRead_rxBuf (j : Fin 32) (s : State) :
    regRead (BitVec.ofNat 8 (0x80 + j.val)) s =
      memRead s.rxc.buf (4 * j.val + 3) ++ memRead s.rxc.buf (4 * j.val + 2) ++ memRead s.rxc.buf (4 * j.val + 1)
        ++ memRead s.rxc.buf (4 * j.val) := by
  have hj : (BitVec.ofNat 5 j.val).toNat = j.val := by rw [BitVec.toNat_ofNat, Nat.mod_eq_of_lt j.isLt]
  rw [regRead_of_regAt (regAt_rxBuf j)]
  simp only [readReg, rxBufWord, hj]

/-- Settles O7: each address by the register that stands there and what it reads as. -/
theorem registerMapReads : Obligations.RegisterMapReads := by
  intro s
  refine ⟨
    -- Mem
    rfl, rfl, rfl, setWidth_ofBool _, rfl, rfl, rfl, rfl, rfl, rfl,
    rfl, rfl, rfl, rfl, rfl, rfl, rfl, rfl, rfl, rfl, rfl, rfl,
    rfl, rfl, rfl, rfl, rfl, rfl,
    -- the references
    rfl, rfl, rfl, rfl, rfl, rfl, rfl, rfl, rfl,
    -- the measurements
    rfl, rfl, rfl, rfl, rfl, rfl, rfl, rfl, rfl,
    rfl, rfl, rfl, rfl, rfl, rfl, rfl, rfl, rfl,
    -- the drive, the session, the framer and the flags
    rfl, rfl, rfl, ?calStatus, ?framerStatus, rfl,
    -- the committed buffer, the commands and the reserved addresses
    rfl, setWidth_ofBool _, fun j => regRead_rxBuf j s, rfl, rfl,
    fun a hmap hbuf => regRead_of_reserved (regAt_reserved hmap hbuf) s⟩
  case calStatus =>
    rw [regRead_of_regAt (r := .calStatus) rfl, readReg, calStatusWord]
    cases s.cal.phase <;> rfl
  case framerStatus =>
    rw [regRead_of_regAt (r := .framerStatus) rfl, readReg, framerStatusWord]
    cases s.framer.fstate <;> rfl

/-! ### A write and its read back -/

/-- A configuration field or a pending reference reads back as what its width keeps of the value (10_state.md R56). -/
theorem readReg_writeReg_same {r : Reg} (h : r.isReadWrite = true) (v : W32) (s : State) :
    readReg r (writeReg r v s) = keptBy r.addr v := by
  cases r with
  | ctrlMode | inputMode | nodeAddr => exact setWidth_setWidth_eq_and (n := 8) (by decide) v
  | currLimit => exact setWidth_setWidth_eq_and (n := 16) (by decide) v
  | refPendOnoff => exact setWidth_setWidth_eq_and (n := 2) (by decide) v
  | posLimEn =>
    have hbit : BitVec.ofBool (v.getLsbD 0) = v.setWidth 1 := BitVec.setWidth_one.symm
    simp only [readReg, writeReg, hbit]
    exact setWidth_setWidth_eq_and (n := 1) (by decide) v
  | maxStiff => rfl
  | posLimInf m | posLimSup m | refPendPos m => fin_cases m <;> rfl
  | encOff k | encMult k => fin_cases k <;> rfl
  | gain g t => cases g <;> cases t <;> rfl
  | _ => cases h

/-- A gain set is not changed by a write to a term of another one. -/
theorem gainsOf_putGains (g g' : GainSet) (x : Gains) (m : DevMem) :
    gainsOf g' (putGains g x m) = if g' = g then x else gainsOf g' m := by
  cases g <;> cases g' <;> rfl

theorem gainTerm_putGainTerm (t t' : GainTerm) (v : W32) (x : Gains) :
    gainTerm t' (putGainTerm t v x) = if t' = t then v else gainTerm t' x := by
  cases t <;> cases t' <;> rfl

/-- A write to a configuration field or a pending reference does not show in another register (20_memory.md R109). -/
theorem readReg_writeReg_ne {r r' : Reg} (h : r.isReadWrite = true) (hne : r' ≠ r) (v : W32) (s : State) :
    readReg r' (writeReg r v s) = readReg r' s := by
  cases r with
  | ctrlMode | inputMode | nodeAddr | posLimEn | currLimit | maxStiff | refPendOnoff =>
    cases r' <;> first | rfl | exact absurd rfl hne
  | posLimInf m =>
    cases r' with
    | posLimInf m' => exact Two.get_set_ne _ (fun e => hne (congrArg _ e)) v
    | _ => rfl
  | posLimSup m =>
    cases r' with
    | posLimSup m' => exact Two.get_set_ne _ (fun e => hne (congrArg _ e)) v
    | _ => rfl
  | refPendPos m =>
    cases r' with
    | refPendPos m' => exact Two.get_set_ne _ (fun e => hne (congrArg _ e)) v
    | _ => rfl
  | encOff k =>
    cases r' with
    | encOff k' => exact congrArg (BitVec.signExtend 32) (Three.get_set_ne _ (fun e => hne (congrArg _ e)) _)
    | _ => rfl
  | encMult k =>
    cases r' with
    | encMult k' => exact Three.get_set_ne _ (fun e => hne (congrArg _ e)) v
    | _ => rfl
  | gain g t =>
    cases r' with
    | gain g' t' =>
      simp only [readReg, writeReg, gainsOf_putGains]
      split
      · next hg =>
        subst hg
        exact (gainTerm_putGainTerm t t' v _).trans (if_neg fun e => hne (congrArg _ e))
      · rfl
    | _ => cases g <;> rfl
  | _ => cases h

theorem exec_wr_of_hostMayAct {s : State} (h : s.seq.code = .idle ∨ s.seq.code = .callback) (a : Byte) (v : W32) :
    exec (.wr a v) s = .next (regWrite a v s) :=
  congrArg Host.Outcome.next (if_pos ((hostMayAct_iff s).2 h))

/-- Settles O8: the register at the address is read back, and every other address names another register or none. -/
theorem writeThenReadBack : Obligations.WriteThenReadBack := by
  intro a v s ha hpos
  obtain ⟨r, hr, hrw⟩ := regAt_readWrite ha
  refine ⟨writeReg r v s, ?_, ?_, ?_⟩
  · rw [exec_wr_of_hostMayAct hpos, regWrite_of_regAt hr]
  · rw [regRead_of_regAt hr, readReg_writeReg_same hrw, addr_of_regAt hr]
  · intro b hb
    cases hrb : regAt b with
    | none => rw [regRead_of_reserved hrb, regRead_of_reserved hrb]
    | some r' =>
      have hne : r' ≠ r := by
        rintro rfl
        exact hb (regAt_injective hrb hr)
      rw [regRead_of_regAt hrb, regRead_of_regAt hrb, readReg_writeReg_ne hrw hne]

/-! ### What the operations keep of the configuration, the committed references and the snapshots -/

/-- `t` has the committed references and both snapshots of `s` (10_state.md R40, R42). -/
structure State.KeepsCommitted (s t : State) : Prop where
  refC     : t.refC = s.refC
  refPrev  : t.refPrev = s.refPrev
  measPrev : t.measPrev = s.measPrev

/-- `t` has the configuration, the committed references and both snapshots of `s`. -/
structure State.KeepsStores (s t : State) : Prop extends s.KeepsCommitted t where
  mem : t.mem = s.mem

/-- An outcome that, when it is a next state, keeps the stores of `s`. -/
def Result.KeepsStores (s : State) (r : Result) : Prop := ∀ t, r = .next t → s.KeepsStores t

theorem State.KeepsCommitted.refl (s : State) : s.KeepsCommitted s := ⟨rfl, rfl, rfl⟩

theorem State.KeepsStores.of_eq {s t : State} (hm : t.mem = s.mem) (hc : t.refC = s.refC) (hp : t.refPrev = s.refPrev)
    (hq : t.measPrev = s.measPrev) : s.KeepsStores t :=
  ⟨⟨hc, hp, hq⟩, hm⟩

theorem State.KeepsStores.refl (s : State) : s.KeepsStores s := .of_eq rfl rfl rfl rfl

theorem State.KeepsStores.trans {s t u : State} (h : s.KeepsStores t) (h' : t.KeepsStores u) : s.KeepsStores u :=
  .of_eq (h'.mem.trans h.mem) (h'.refC.trans h.refC) (h'.refPrev.trans h.refPrev) (h'.measPrev.trans h.measPrev)

theorem State.KeepsStores.gotoCode {s t : State} (h : s.KeepsStores t) (c : SeqCode) : s.KeepsStores (t.gotoCode c) :=
  h.trans (.of_eq rfl rfl rfl rfl)

theorem State.KeepsStores.ite {s t u : State} {p : Prop} [Decidable p] (ht : s.KeepsStores t) (hu : s.KeepsStores u) :
    s.KeepsStores (if p then t else u) := by
  split
  · exact ht
  · exact hu

theorem Result.keepsStores_next {s t : State} (h : s.KeepsStores t) : Result.KeepsStores s (.next t) := by
  rintro u ⟨⟩
  exact h

theorem keepsStores_enterDrain (p : SeqPos) (s : State) : s.KeepsStores (enterDrain p s) :=
  .ite (.of_eq rfl rfl rfl rfl) (.of_eq rfl rfl rfl rfl)

theorem keepsStores_poll (p : SeqPos) (s : State) : s.KeepsStores (poll p s) :=
  .ite (keepsStores_enterDrain p s) (.of_eq rfl rfl rfl rfl)

theorem keepsStores_fifoPush (s : State) (b : Byte) : s.KeepsStores (s.fifoPush b) :=
  .ite (.of_eq rfl rfl rfl rfl) (.refl s)

theorem keepsStores_encoderUpdate (k : Fin 3) (s : State) : s.KeepsStores (encoderUpdate k s) := by
  have hclear : s.KeepsStores (clearLast s) := by
    rw [clearLast_eq]
    exact .of_eq rfl rfl rfl rfl
  have hunwrap (raw : W16) (u : State) : u.KeepsStores (unwrapSample k raw u) := by
    obtain ⟨n, l, t, p, h⟩ := unwrapSample_frame k raw u
    rw [h]
    exact .of_eq rfl rfl rfl rfl
  exact .ite (hclear.trans (hunwrap _ _)) hclear

theorem keepsStores_analogFrontEnd (s : State) : s.KeepsStores (analogFrontEnd s) := by
  rw [analogFrontEnd_frame]
  exact .of_eq rfl rfl rfl rfl

theorem keepsStores_motorStepIn (c : Option ModeCode) (m : Fin 2) (s : State) : s.KeepsStores (motorStepIn c m s) := by
  rw [motorStepIn_frame]
  exact .of_eq rfl rfl rfl rfl

theorem keepsStores_onMotor {f : Fin 2 → State → State} {s : State} (h : ∀ m, s.KeepsStores (f m s)) :
    Result.KeepsStores s (onMotor f s) := by
  unfold onMotor
  split
  · next m _ => exact Result.keepsStores_next (h m)
  · rintro t ⟨⟩

/-- A byte step on what a pop leaves keeps the stores of the state before the pop (41_framer.md R200). -/
theorem keepsStores_framerByteIn_of_fifoPop {s u : State} {b : Byte} (h : s.fifoPop = some (b, u)) (f : FramerCode) :
    Result.KeepsStores s (framerByteIn f b u) := by
  intro t ht
  obtain ⟨rest, -, rfl⟩ := fifoPop_spec h
  rw [framerByteIn_frame ht]
  exact .of_eq rfl rfl rfl rfl

theorem keepsStores_framerInstr (f : FramerCode) (s : State) : Result.KeepsStores s (framerInstr f s) := by
  unfold framerInstr
  split
  · next h => exact keepsStores_framerByteIn_of_fifoPop h f
  · exact Result.keepsStores_next (.refl s)

theorem keepsStores_drainStep (s : State) : Result.KeepsStores s (drainStep s) := by
  have hend : Result.KeepsStores s (.next (drainEnd s)) := Result.keepsStores_next (.of_eq rfl rfl rfl rfl)
  unfold drainStep
  split
  · split
    · next h => exact keepsStores_framerByteIn_of_fifoPop h _
    · exact hend
  · exact hend

theorem keepsStores_execEnc (k : Byte) (w : W32) (s : State) : Result.KeepsStores s (execEnc k w s) := by
  unfold execEnc
  split
  · exact Result.keepsStores_next (.of_eq rfl rfl rfl rfl)
  · exact Result.keepsStores_next (.refl s)

theorem keepsStores_execAdc (c : Byte) (v : W16) (s : State) : Result.KeepsStores s (execAdc c v s) := by
  unfold execAdc
  split
  · exact Result.keepsStores_next (.of_eq rfl rfl rfl rfl)
  · exact Result.keepsStores_next (.refl s)

/-! ### What the writers do -/

theorem writeReg_keepsCommitted (r : Reg) (v : W32) (s : State) : s.KeepsCommitted (writeReg r v s) := by
  cases r with
  | cmdCalStart | cmdResetLast | rxReady =>
    simp only [writeReg, writeCalStart, writeResetLast, writeRxReady]
    split <;> exact ⟨rfl, rfl, rfl⟩
  | _ => exact ⟨rfl, rfl, rfl⟩

theorem writeReg_mem {r : Reg} (h : r.isConfig = false) (v : W32) (s : State) : (writeReg r v s).mem = s.mem := by
  cases r with
  | cmdCalStart | cmdResetLast | rxReady =>
    simp only [writeReg, writeCalStart, writeResetLast, writeRxReady]
    split <;> rfl
  | ctrlMode | inputMode | nodeAddr | posLimEn | posLimInf _ | posLimSup _ | currLimit | maxStiff => cases h
  | gain _ _ | encOff _ | encMult _ => cases h
  | _ => rfl

theorem regWrite_keepsCommitted (a : Byte) (v : W32) (s : State) : s.KeepsCommitted (regWrite a v s) := by
  cases h : regAt a with
  | none => rw [regWrite_of_reserved h]; exact .refl s
  | some r => rw [regWrite_of_regAt h]; exact writeReg_keepsCommitted r v s

/-- A host write reaches Mem at the addresses of its fields only (10_state.md R56). -/
theorem regWrite_mem (a : Byte) (v : W32) (s : State) : (regWrite a v s).mem = s.mem ∨ a.toNat ∈ memAddresses := by
  cases h : regAt a with
  | none => exact .inl (by rw [regWrite_of_reserved h])
  | some r =>
    cases hr : r.isConfig with
    | false => exact .inl (by rw [regWrite_of_regAt h, writeReg_mem hr])
    | true => exact .inr (addr_of_regAt h ▸ isConfig_addr hr)

theorem calPhaseBody_keepsCommitted (p : CalphCode) (s : State) : s.KeepsCommitted (calPhaseBody p s) := by
  rw [calPhaseBody_frame]
  exact ⟨rfl, rfl, rfl⟩

/-- Only Pause1 and Continue1 write Mem, and only the position gains and the captured value (46_calibration.md R332,
R334). -/
theorem calPhaseBody_mem (p : CalphCode) (s : State) :
    (calPhaseBody p s).mem = s.mem
    ∨ ((p = .pause1 ∨ p = .continue1)
      ∧ (calPhaseBody p s).mem =
        { s.mem with gPos := (calPhaseBody p s).mem.gPos, maxStiff := (calPhaseBody p s).mem.maxStiff }) := by
  have hframe := congrArg State.mem (calPhaseBody_frame p s)
  cases p with
  | stop | start | continue2 => exact .inl rfl
  | pause1 => exact .inr ⟨.inl rfl, hframe⟩
  | continue1 => exact .inr ⟨.inr rfl, hframe⟩
  | pause2 =>
    left
    simp only [calPhaseBody, calPause2]
    split <;> rfl

theorem calTick_keepsCommitted (s : State) : s.KeepsCommitted (calTick s) := by
  rcases calTick_cases s with ⟨-, h⟩ | ⟨-, h⟩ <;> rw [h]
  · obtain ⟨hc, hp, hq⟩ := calPhaseBody_keepsCommitted s.cal.phase { s with calDiv := 0 }
    exact ⟨hc, hp, hq⟩
  · exact ⟨rfl, rfl, rfl⟩

/-- The CAL step writes Mem at the wrap of the divider, in Pause1 or Continue1 (40_scheduler.md R181). -/
theorem calTick_mem (s : State) :
    (calTick s).mem = s.mem
    ∨ (s.calDiv + 1 = s.cfg.calDiv ∧ (s.cal.phase = .pause1 ∨ s.cal.phase = .continue1)
      ∧ (calTick s).mem = { s.mem with gPos := (calTick s).mem.gPos, maxStiff := (calTick s).mem.maxStiff }) := by
  rcases calTick_cases s with ⟨hdiv, h⟩ | ⟨-, h⟩ <;> rw [h]
  · rcases calPhaseBody_mem s.cal.phase { s with calDiv := 0 } with hm | ⟨hp, hm⟩
    · exact .inl hm
    · exact .inr ⟨hdiv, hp, hm⟩
  · exact .inl rfl

/-! ### The writers, over all instructions -/

/-- The instruction performs the micro-operation of position `c`: as its own row, or as STEP there (30_encoding.md R140,
47_host_interface.md R372). -/
def Performs (c : SeqCode) (i : Instr) (s : State) : Prop := i = c.instr ∨ (i = .step ∧ s.seq.code = c)

/-- The next states of an instruction, by what they write of the configuration, the committed references and the
snapshots. -/
inductive StoreWrite (i : Instr) (s : State) : State → Prop where
  | keeps {t : State} (h : s.KeepsStores t) : StoreWrite i s t
  | reset {t : State} (hi : i = .reset) : StoreWrite i s t
  | hostWrite (a : Byte) (v : W32) (hi : i = .wr a v) (hs : hostMayAct s = true) : StoreWrite i s (regWrite a v s)
  | encoder3 (hi : i = .inputEncoder3) : StoreWrite i s (overrideRefs s)
  | inputOvr (hi : Performs .inputOvr i s) : StoreWrite i s ((inputOverride s).goto ⟨.motor, 0⟩)
  | calPhase (p : CalphCode) (hi : i = p.instr) : StoreWrite i s (calPhaseBody p s)
  | cal (hi : Performs .cal i s) : StoreWrite i s ((calTick s).gotoCode .swap)
  | swap (hi : Performs .swap i s) : StoreWrite i s (endTick (snapshotSwap s))

theorem StoreWrite.of_keepsStores {i : Instr} {s t : State} {r : Result} (hr : Result.KeepsStores s r) (h : r = .next t) :
    StoreWrite i s t :=
  .keeps (hr t h)

theorem StoreWrite.of_next {i : Instr} {s t u : State} (h : (.next u : Result) = .next t) (hu : StoreWrite i s u) :
    StoreWrite i s t := by
  cases h
  exact hu

/-- Of the micro-operations only INPUT_OVR, CAL and SWAP write a store (40_scheduler.md R171 to R183). -/
theorem microOp_storeWrite {c : SeqCode} {i : Instr} {s t : State} (hi : Performs c i s) (h : microOp c s = .next t) :
    StoreWrite i s t := by
  cases c with
  | inputOvr => exact .of_next h (.inputOvr hi)
  | cal => exact .of_next h (.cal hi)
  | swap => exact .of_next h (.swap hi)
  | idle => exact .of_next h (.keeps (.ite (.of_eq rfl rfl rfl rfl) (.refl s)))
  | adcStart => exact .of_next h (.keeps (.of_eq rfl rfl rfl rfl))
  | drainB => exact .of_next h (.keeps (keepsStores_enterDrain _ s))
  | enc => exact .of_next h (.keeps ((keepsStores_encoderUpdate _ s).gotoCode _))
  | pollC | pollD => exact .of_next h (.keeps (keepsStores_poll _ s))
  | motor =>
    exact .of_keepsStores (keepsStores_onMotor (f := fun m t => (motorControl m t).gotoCode .pollD)
      fun m => (keepsStores_motorStepIn _ m s).gotoCode .pollD) h
  | adcWait =>
    exact .of_next h (.keeps (.ite (.of_eq rfl rfl rfl rfl) (.ite (keepsStores_enterDrain _ s) (.refl s))))
  | afe => exact .of_next h (.keeps ((keepsStores_analogFrontEnd s).gotoCode _))
  | drain => exact .of_keepsStores (keepsStores_drainStep s) h
  | callback => exact .of_next h (.keeps (.refl s))

/-- What an instruction can write of the stores: the TXN rows one by one, the SEQ rows and STEP by their micro-operation, and
the code rows by their body. -/
theorem exec_storeWrite {i : Instr} {s t : State} (h : exec i s = .next t) : StoreWrite i s t := by
  cases i with
  | reset => exact .reset rfl
  | timer | adcdone => exact .of_next h (.keeps (.of_eq rfl rfl rfl rfl))
  | rxb b => exact .of_next h (.keeps ((keepsStores_fifoPush s b).trans (.of_eq rfl rfl rfl rfl)))
  | enc k w => exact .of_keepsStores (keepsStores_execEnc k w s) h
  | adc c v => exact .of_keepsStores (keepsStores_execAdc c v s) h
  | wr a v =>
    refine .of_next h ?_
    split
    · next hs => exact .hostWrite a v rfl hs
    · exact .keeps (.refl s)
  | rd a => exact .of_next h (.keeps (.ite (.of_eq rfl rfl rfl rfl) (.refl s)))
  | hdone => exact .of_next h (.keeps (.ite (.of_eq rfl rfl rfl rfl) (.refl s)))
  | step => exact microOp_storeWrite (.inr ⟨rfl, rfl⟩) h
  | seqIdle => exact microOp_storeWrite (c := .idle) (.inl rfl) h
  | seqAdcStart => exact microOp_storeWrite (c := .adcStart) (.inl rfl) h
  | seqDrainB => exact microOp_storeWrite (c := .drainB) (.inl rfl) h
  | seqEnc => exact microOp_storeWrite (c := .enc) (.inl rfl) h
  | seqPollC => exact microOp_storeWrite (c := .pollC) (.inl rfl) h
  | seqInputOvr => exact microOp_storeWrite (c := .inputOvr) (.inl rfl) h
  | seqMotor => exact microOp_storeWrite (c := .motor) (.inl rfl) h
  | seqPollD => exact microOp_storeWrite (c := .pollD) (.inl rfl) h
  | seqAdcWait => exact microOp_storeWrite (c := .adcWait) (.inl rfl) h
  | seqAfe => exact microOp_storeWrite (c := .afe) (.inl rfl) h
  | seqCal => exact microOp_storeWrite (c := .cal) (.inl rfl) h
  | seqSwap => exact microOp_storeWrite (c := .swap) (.inl rfl) h
  | seqDrain => exact microOp_storeWrite (c := .drain) (.inl rfl) h
  | seqCallback => exact microOp_storeWrite (c := .callback) (.inl rfl) h
  | framerWaitStart | framerWaitId | framerWaitLength | framerReceive | framerUnload =>
    exact .of_keepsStores (keepsStores_framerInstr _ s) h
  | modePosition | modePwm | modeCurrent | modePosCurr | modeDeflection | modeDeflCurr =>
    exact .of_keepsStores (keepsStores_onMotor fun m => keepsStores_motorStepIn _ m s) h
  | inputExternal => exact .of_next h (.keeps (.refl s))
  | inputEncoder3 => exact .of_next h (.encoder3 rfl)
  | calphStop => exact .of_next h (.calPhase .stop rfl)
  | calphStart => exact .of_next h (.calPhase .start rfl)
  | calphPause1 => exact .of_next h (.calPhase .pause1 rfl)
  | calphContinue1 => exact .of_next h (.calPhase .continue1 rfl)
  | calphPause2 => exact .of_next h (.calPhase .pause2 rfl)
  | calphContinue2 => exact .of_next h (.calPhase .continue2 rfl)

theorem inputOverride_mem (s : State) : (inputOverride s).mem = s.mem := by
  rw [inputOverride_eq]
  split <;> rfl

/-- Settles O46: the cases of `exec_storeWrite`, with what a host write and a calibration phase do to Mem. -/
theorem writersOfMem : Obligations.WritersOfMem := by
  intro i s t h
  cases exec_storeWrite h with
  | keeps hkeep => exact .inl hkeep.mem
  | reset hi => exact .inr (.inl hi)
  | hostWrite a v hi hs =>
    rcases regWrite_mem a v s with hm | ha
    · exact .inl hm
    · exact .inr (.inr (.inl ⟨a, v, hi, ha, (hostMayAct_iff s).1 hs⟩))
  | encoder3 => exact .inl rfl
  | inputOvr => exact .inl (inputOverride_mem s)
  | calPhase p hi =>
    rcases calPhaseBody_mem p s with hm | ⟨rfl | rfl, hm⟩
    · exact .inl hm
    · exact .inr (.inr (.inr ⟨.inl hi, hm⟩))
    · exact .inr (.inr (.inr ⟨.inr (.inl hi), hm⟩))
  | cal hi =>
    rcases calTick_mem s with hm | ⟨hdiv, hphase, hm⟩
    · exact .inl hm
    · exact .inr (.inr (.inr ⟨.inr (.inr ⟨hi, hdiv, hphase⟩), hm⟩))
  | swap => exact .inl rfl

/-- SWAP copies the pending references into the committed ones and takes both snapshots (40_scheduler.md R182). -/
theorem exec_swap {i : Instr} {s t : State} (hi : Performs .swap i s) (h : exec i s = .next t) :
    t = endTick (snapshotSwap s) := by
  have hop : exec i s = microOp .swap s := by
    rcases hi with rfl | ⟨rfl, hc⟩
    · rfl
    · exact congrArg (fun c => microOp c s) hc
  rw [hop] at h
  cases h
  rfl

/-- The committed references and the snapshots stand as they did, whatever else may replace the positions. -/
theorem State.KeepsCommitted.refC_or {s t : State} (h : s.KeepsCommitted t) (p : Prop) :
    t.refPrev = s.refPrev ∧ t.measPrev = s.measPrev ∧ t.refC.onoff = s.refC.onoff ∧ (t.refC = s.refC ∨ p) :=
  ⟨h.refPrev, h.measPrev, congrArg Ref.onoff h.refC, .inl h.refC⟩

/-- Settles O47: SWAP by its effect, every other instruction by the cases of `exec_storeWrite`. -/
theorem writersOfCommittedReferences : Obligations.WritersOfCommittedReferences := by
  intro i s t h hreset
  constructor
  · intro hswap
    rw [exec_swap hswap h]
    exact ⟨rfl, rfl, rfl⟩
  · intro hswap
    cases exec_storeWrite h with
    | keeps hkeep => exact hkeep.refC_or _
    | reset hi => exact absurd hi hreset
    | hostWrite a v => exact (regWrite_keepsCommitted a v s).refC_or _
    | encoder3 hi => exact ⟨rfl, rfl, rfl, .inr (.inl hi)⟩
    | inputOvr hi =>
      rw [inputOverride_eq]
      split
      · next hmode => exact ⟨rfl, rfl, rfl, .inr (.inr ⟨hi, hmode⟩)⟩
      · exact ⟨rfl, rfl, rfl, .inl rfl⟩
    | calPhase p => exact (calPhaseBody_keepsCommitted p s).refC_or _
    | cal => exact (calTick_keepsCommitted s).refC_or _
    | swap hi => exact absurd hi hswap

end Sys2Proof.Machine

/-! Settling the statements of the family 30_encoding.md: the codes and the transaction words, each way (R131 to R155), and
the bound of a RUN (R163). -/

namespace Sys2Proof

/-! ### The codes of the enumerations -/

theorem seqCodeOf_eq_some_iff {c : BitVec 5} {x : SeqCode} : seqCodeOf c = some x ↔ x.bits = c := by
  constructor
  · intro h
    unfold seqCodeOf at h
    split at h <;> cases h <;> exact BitVec.eq_of_toNat_eq (Eq.symm ‹_›)
  · rintro rfl
    exact seqCodeOf_bits x

theorem framerCodeOf_eq_some_iff {c : BitVec 3} {x : FramerCode} : framerCodeOf c = some x ↔ x.bits = c := by
  constructor
  · intro h
    unfold framerCodeOf at h
    split at h <;> cases h <;> exact BitVec.eq_of_toNat_eq (Eq.symm ‹_›)
  · rintro rfl
    exact framerCodeOf_bits x

theorem modeCodeOf_eq_some_iff {c : BitVec 8} {x : ModeCode} : modeCodeOf c = some x ↔ x.bits = c := by
  constructor
  · intro h
    unfold modeCodeOf at h
    split at h <;> cases h <;> exact BitVec.eq_of_toNat_eq (Eq.symm ‹_›)
  · rintro rfl
    exact modeCodeOf_bits x

theorem inputCodeOf_eq_some_iff {c : BitVec 8} {x : InputCode} : inputCodeOf c = some x ↔ x.bits = c := by
  constructor
  · intro h
    unfold inputCodeOf at h
    split at h <;> cases h <;> exact BitVec.eq_of_toNat_eq (Eq.symm ‹_›)
  · rintro rfl
    exact inputCodeOf_bits x

theorem calphCodeOf_eq_some_iff {c : BitVec 3} {x : CalphCode} : calphCodeOf c = some x ↔ x.bits = c := by
  constructor
  · intro h
    unfold calphCodeOf at h
    split at h <;> cases h <;> exact BitVec.eq_of_toNat_eq (Eq.symm ‹_›)
  · rintro rfl
    exact calphCodeOf_bits x

/-- 30_encoding.md R140: a SEQ code decodes to the micro-operation of the position it names, and to nothing else. -/
theorem decode_seq_eq_ok_iff {c : BitVec 5} {i : Instr} :
    decode (.seq c) = .ok i ↔ ∃ x : SeqCode, x.bits = c ∧ x.instr = i := by
  simp only [← seqCodeOf_eq_some_iff, decode]
  cases seqCodeOf c <;> simp

/-- 30_encoding.md R145. -/
theorem decode_framer_eq_ok_iff {c : BitVec 3} {i : Instr} :
    decode (.framer c) = .ok i ↔ ∃ x : FramerCode, x.bits = c ∧ x.instr = i := by
  simp only [← framerCodeOf_eq_some_iff, decode]
  cases framerCodeOf c <;> simp

/-- 30_encoding.md R150. -/
theorem decode_mode_eq_ok_iff {c : BitVec 8} {i : Instr} :
    decode (.mode c) = .ok i ↔ ∃ x : ModeCode, x.bits = c ∧ x.instr = i := by
  simp only [← modeCodeOf_eq_some_iff, decode]
  cases modeCodeOf c <;> simp

/-- 30_encoding.md R152. -/
theorem decode_input_eq_ok_iff {c : BitVec 8} {i : Instr} :
    decode (.input c) = .ok i ↔ ∃ x : InputCode, x.bits = c ∧ x.instr = i := by
  simp only [← inputCodeOf_eq_some_iff, decode]
  cases inputCodeOf c <;> simp

/-- 30_encoding.md R155. -/
theorem decode_calph_eq_ok_iff {c : BitVec 3} {i : Instr} :
    decode (.calph c) = .ok i ↔ ∃ x : CalphCode, x.bits = c ∧ x.instr = i := by
  simp only [← calphCodeOf_eq_some_iff, decode]
  cases calphCodeOf c <;> simp

/-! ### The rows of the transactions -/

/-- The rows of 30_encoding.md R133 with the operand forms of R132 and R134: the fields OP, AI and DATA of a well-formed
transaction, and its instruction. -/
inductive TxnRow : Byte → Byte → W32 → Instr → Prop where
  | reset : TxnRow 0x01 0 0 .reset
  | timer : TxnRow 0x02 0 0 .timer
  | rxb (b : Byte) : TxnRow 0x03 0 (b.setWidth 32) (.rxb b)
  | enc (k : Byte) (w : W32) (h : k.toNat ≤ 2) : TxnRow 0x04 k w (.enc k w)
  | adc (c : Byte) (v : W16) (h : c.toNat ≤ 2) : TxnRow 0x05 c (v.setWidth 32) (.adc c v)
  | adcdone : TxnRow 0x06 0 0 .adcdone
  | wr (a : Byte) (v : W32) : TxnRow 0x07 a v (.wr a v)
  | rd (a : Byte) : TxnRow 0x08 a 0 (.rd a)
  | hdone : TxnRow 0x09 0 0 .hdone
  | step : TxnRow 0x0A 0 0 .step

/-- A widened operand is below the bound of its own width. -/
theorem setWidth_toNat_lt {n : Nat} (v : BitVec n) : (v.setWidth 32).toNat < 2 ^ n := by
  rw [BitVec.toNat_setWidth]
  exact (Nat.mod_le _ _).trans_lt v.isLt

/-- A word below the bound of a width is a widened operand of that width. -/
theorem exists_eq_setWidth {n : Nat} {d : W32} (h : d.toNat < 2 ^ n) : ∃ v : BitVec n, d = v.setWidth 32 := by
  refine ⟨d.setWidth n, BitVec.eq_of_toNat_eq ?_⟩
  rw [BitVec.toNat_setWidth, BitVec.toNat_setWidth, Nat.mod_eq_of_lt h, Nat.mod_eq_of_lt d.isLt]

/-- The bits from `n` up are 0 exactly when the word is a value of `n` bits. -/
theorem extractLsb'_high_eq_zero_iff {n k : Nat} (h : n + k = 32) (d : W32) :
    d.extractLsb' n k = 0 ↔ ∃ v : BitVec n, d = v.setWidth 32 := by
  have hd : d.toNat < 2 ^ n * 2 ^ k := by
    rw [← pow_add, h]
    exact d.isLt
  have hhigh : d.extractLsb' n k = 0 ↔ d.toNat / 2 ^ n = 0 := by
    rw [BitVec.toNat_eq, BitVec.extractLsb'_toNat, Nat.shiftRight_eq_div_pow,
      Nat.mod_eq_of_lt (Nat.div_lt_of_lt_mul hd)]
    rfl
  rw [hhigh, Nat.div_eq_zero_iff_lt (by positivity)]
  constructor
  · exact exists_eq_setWidth
  · rintro ⟨v, rfl⟩
    exact setWidth_toNat_lt v

/-- The low bits of a widened operand are the operand (30_encoding.md R132). -/
theorem extractLsb'_setWidth {n : Nat} (h : n ≤ 32) (v : BitVec n) : (v.setWidth 32).extractLsb' 0 n = v := by
  apply BitVec.eq_of_toNat_eq
  have hv : v.toNat < 2 ^ 32 := v.isLt.trans_le (Nat.pow_le_pow_right (by decide) h)
  rw [BitVec.extractLsb'_toNat, Nat.shiftRight_zero, BitVec.toNat_setWidth, Nat.mod_eq_of_lt hv, Nat.mod_eq_of_lt v.isLt]

theorem decodePlain_eq_ok_iff {i j : Instr} {ai : Byte} {data : W32} :
    decodePlain i ai data = .ok j ↔ ai = 0 ∧ data = 0 ∧ i = j := by
  unfold decodePlain
  split_ifs with ha hd <;> simp_all

theorem decodeRxb_eq_ok_iff {i : Instr} {ai : Byte} {data : W32} :
    decodeRxb ai data = .ok i ↔ ai = 0 ∧ ∃ b : Byte, data = b.setWidth 32 ∧ .rxb b = i := by
  have hhigh := extractLsb'_high_eq_zero_iff (n := 8) (k := 24) rfl data
  have hlow (b : Byte) := extractLsb'_setWidth (n := 8) (by decide) b
  unfold decodeRxb
  constructor
  · intro h
    split_ifs at h with ha hd
    obtain ⟨b, rfl⟩ := hhigh.1 (not_not.1 hd)
    rw [hlow] at h
    exact ⟨not_not.1 ha, b, rfl, Except.ok.inj h⟩
  · rintro ⟨rfl, b, rfl, rfl⟩
    rw [if_neg (not_not.2 rfl), if_neg (not_not.2 (hhigh.2 ⟨b, rfl⟩)), hlow]

theorem decodeEnc_eq_ok_iff {i : Instr} {ai : Byte} {data : W32} :
    decodeEnc ai data = .ok i ↔ ai.toNat ≤ 2 ∧ .enc ai data = i := by
  unfold decodeEnc
  split_ifs with ha <;> simp [ha]

theorem decodeAdc_eq_ok_iff {i : Instr} {ai : Byte} {data : W32} :
    decodeAdc ai data = .ok i ↔ ai.toNat ≤ 2 ∧ ∃ v : W16, data = v.setWidth 32 ∧ .adc ai v = i := by
  have hhigh := extractLsb'_high_eq_zero_iff (n := 16) (k := 16) rfl data
  have hlow (v : W16) := extractLsb'_setWidth (n := 16) (by decide) v
  unfold decodeAdc
  constructor
  · intro h
    split_ifs at h with ha hd
    obtain ⟨v, rfl⟩ := hhigh.1 (not_not.1 hd)
    rw [hlow] at h
    exact ⟨ha, v, rfl, Except.ok.inj h⟩
  · rintro ⟨ha, v, rfl, rfl⟩
    rw [if_pos ha, if_neg (not_not.2 (hhigh.2 ⟨v, rfl⟩)), hlow]

theorem decodeRd_eq_ok_iff {i : Instr} {ai : Byte} {data : W32} :
    decodeRd ai data = .ok i ↔ data = 0 ∧ .rd ai = i := by
  unfold decodeRd
  split_ifs with hd <;> simp_all

/-- A word with RSV = 0 whose fields are those of a row decodes to its instruction. -/
theorem decodeTxn_of_txnRow {w : TxnWord} {i : Instr} (hrsv : txnRsv w = 0)
    (hrow : TxnRow (txnOp w) (txnAi w) (txnData w) i) : decodeTxn w = .ok i := by
  unfold decodeTxn
  rw [if_neg (not_not.2 hrsv)]
  generalize txnOp w = op, txnAi w = ai, txnData w = data at hrow ⊢
  cases hrow with
  | reset | timer | adcdone | hdone | step => exact decodePlain_eq_ok_iff.2 ⟨rfl, rfl, rfl⟩
  | rxb b => exact decodeRxb_eq_ok_iff.2 ⟨rfl, b, rfl, rfl⟩
  | enc k d hk => exact decodeEnc_eq_ok_iff.2 ⟨hk, rfl⟩
  | adc c v hc => exact decodeAdc_eq_ok_iff.2 ⟨hc, v, rfl, rfl⟩
  | wr a v => rfl
  | rd a => exact decodeRd_eq_ok_iff.2 ⟨rfl, rfl⟩

/-- The rows whose AI and DATA are 0, as the decoder meets them. -/
theorem TxnRow.of_decodePlain {op ai : Byte} {data : W32} {i j : Instr} (hrow : TxnRow op 0 0 i)
    (h : decodePlain i ai data = .ok j) : TxnRow op ai data j := by
  obtain ⟨rfl, rfl, rfl⟩ := decodePlain_eq_ok_iff.1 h
  exact hrow

/-- A word that decodes has RSV = 0 and the fields of the row of its instruction. -/
theorem txnRow_of_decodeTxn {w : TxnWord} {i : Instr} (h : decodeTxn w = .ok i) :
    txnRsv w = 0 ∧ TxnRow (txnOp w) (txnAi w) (txnData w) i := by
  unfold decodeTxn at h
  split at h
  · cases h
  next hrsv =>
    refine ⟨not_not.1 hrsv, ?_⟩
    generalize txnOp w = op, txnAi w = ai, txnData w = data at h ⊢
    split at h <;> rename_i hop
    · obtain rfl : op = 0x01 := BitVec.eq_of_toNat_eq hop
      exact TxnRow.reset.of_decodePlain h
    · obtain rfl : op = 0x02 := BitVec.eq_of_toNat_eq hop
      exact TxnRow.timer.of_decodePlain h
    · obtain rfl : op = 0x03 := BitVec.eq_of_toNat_eq hop
      obtain ⟨rfl, b, rfl, rfl⟩ := decodeRxb_eq_ok_iff.1 h
      exact .rxb b
    · obtain rfl : op = 0x04 := BitVec.eq_of_toNat_eq hop
      obtain ⟨hk, rfl⟩ := decodeEnc_eq_ok_iff.1 h
      exact .enc ai data hk
    · obtain rfl : op = 0x05 := BitVec.eq_of_toNat_eq hop
      obtain ⟨hc, v, rfl, rfl⟩ := decodeAdc_eq_ok_iff.1 h
      exact .adc ai v hc
    · obtain rfl : op = 0x06 := BitVec.eq_of_toNat_eq hop
      exact TxnRow.adcdone.of_decodePlain h
    · obtain rfl : op = 0x07 := BitVec.eq_of_toNat_eq hop
      cases h
      exact .wr ai data
    · obtain rfl : op = 0x08 := BitVec.eq_of_toNat_eq hop
      obtain ⟨rfl, rfl⟩ := decodeRd_eq_ok_iff.1 h
      exact .rd ai
    · obtain rfl : op = 0x09 := BitVec.eq_of_toNat_eq hop
      exact TxnRow.hdone.of_decodePlain h
    · obtain rfl : op = 0x0A := BitVec.eq_of_toNat_eq hop
      exact TxnRow.step.of_decodePlain h
    · cases h

/-- 30_encoding.md R133, R134: a transaction word decodes by the row of its fields. -/
theorem decode_txn_eq_ok_iff {w : TxnWord} {i : Instr} :
    decode (.txn w) = .ok i ↔ txnRsv w = 0 ∧ TxnRow (txnOp w) (txnAi w) (txnData w) i :=
  ⟨txnRow_of_decodeTxn, fun ⟨hrsv, hrow⟩ => decodeTxn_of_txnRow hrsv hrow⟩

/-- The word of a row's fields decodes to its instruction. -/
theorem TxnRow.decode_txnWord {op ai : Byte} {data : W32} {i : Instr} (hrow : TxnRow op ai data i) :
    decode (.txn (txnWord op ai data)) = .ok i := by
  refine decode_txn_eq_ok_iff.2 ⟨txnRsv_txnWord op ai data, ?_⟩
  rwa [txnOp_txnWord, txnAi_txnWord, txnData_txnWord]

/-- The instruction of a row is well formed and its encoding is the word of the row's fields. -/
theorem TxnRow.encode_eq {op ai : Byte} {data : W32} {i : Instr} (hrow : TxnRow op ai data i) :
    encode i = .txn (txnWord op ai data) ∧ i.wellFormed = true := by
  cases hrow with
  | enc k w h => exact ⟨rfl, decide_eq_true h⟩
  | adc c v h => exact ⟨rfl, decide_eq_true h⟩
  | _ => exact ⟨rfl, rfl⟩

/-! ### Encoding and decoding -/

/-- Settles O36: a transaction by its row, a code by the iff of its family. -/
theorem decodeOfEncode : Obligations.DecodeOfEncode := by
  intro i hwf
  cases i with
  | reset => exact TxnRow.reset.decode_txnWord
  | timer => exact TxnRow.timer.decode_txnWord
  | rxb b => exact (TxnRow.rxb b).decode_txnWord
  | enc k w => exact (TxnRow.enc k w (of_decide_eq_true hwf)).decode_txnWord
  | adc c v => exact (TxnRow.adc c v (of_decide_eq_true hwf)).decode_txnWord
  | adcdone => exact TxnRow.adcdone.decode_txnWord
  | wr a v => exact (TxnRow.wr a v).decode_txnWord
  | rd a => exact (TxnRow.rd a).decode_txnWord
  | hdone => exact TxnRow.hdone.decode_txnWord
  | step => exact TxnRow.step.decode_txnWord
  | seqIdle | seqAdcStart | seqDrainB | seqEnc | seqPollC | seqInputOvr | seqMotor | seqPollD | seqAdcWait | seqAfe
  | seqCal | seqSwap | seqDrain | seqCallback => exact decode_seq_eq_ok_iff.2 ⟨_, rfl, rfl⟩
  | framerWaitStart | framerWaitId | framerWaitLength | framerReceive | framerUnload =>
    exact decode_framer_eq_ok_iff.2 ⟨_, rfl, rfl⟩
  | modePosition | modePwm | modeCurrent | modePosCurr | modeDeflection | modeDeflCurr =>
    exact decode_mode_eq_ok_iff.2 ⟨_, rfl, rfl⟩
  | inputExternal | inputEncoder3 => exact decode_input_eq_ok_iff.2 ⟨_, rfl, rfl⟩
  | calphStop | calphStart | calphPause1 | calphContinue1 | calphPause2 | calphContinue2 =>
    exact decode_calph_eq_ok_iff.2 ⟨_, rfl, rfl⟩

/-- Settles O37: the row of a transaction gives every field of the word, and a code is the number of what it names. -/
theorem encodeOfDecode : Obligations.EncodeOfDecode := by
  intro e i h
  cases e with
  | txn w =>
    obtain ⟨hrsv, hrow⟩ := decode_txn_eq_ok_iff.1 h
    obtain ⟨henc, hwf⟩ := hrow.encode_eq
    exact ⟨henc.trans (congrArg Encoded.txn (txnWord_fields hrsv)), hwf⟩
  | seq c =>
    obtain ⟨x, rfl, rfl⟩ := decode_seq_eq_ok_iff.1 h
    cases x <;> exact ⟨rfl, rfl⟩
  | framer c =>
    obtain ⟨x, rfl, rfl⟩ := decode_framer_eq_ok_iff.1 h
    cases x <;> exact ⟨rfl, rfl⟩
  | mode c =>
    obtain ⟨x, rfl, rfl⟩ := decode_mode_eq_ok_iff.1 h
    cases x <;> exact ⟨rfl, rfl⟩
  | input c =>
    obtain ⟨x, rfl, rfl⟩ := decode_input_eq_ok_iff.1 h
    cases x <;> exact ⟨rfl, rfl⟩
  | calph c =>
    obtain ⟨x, rfl, rfl⟩ := decode_calph_eq_ok_iff.1 h
    cases x <;> exact ⟨rfl, rfl⟩

/-- The fields that some row has, by their values (30_encoding.md R134). -/
theorem exists_txnRow_iff {op ai : Byte} {data : W32} :
    (∃ i, TxnRow op ai data i) ↔
      (op.toNat ∈ [0x01, 0x02, 0x06, 0x09, 0x0A] ∧ ai.toNat = 0 ∧ data.toNat = 0)
      ∨ (op.toNat = 0x03 ∧ ai.toNat = 0 ∧ data.toNat < 2 ^ 8)
      ∨ (op.toNat = 0x04 ∧ ai.toNat ≤ 2)
      ∨ (op.toNat = 0x05 ∧ ai.toNat ≤ 2 ∧ data.toNat < 2 ^ 16)
      ∨ op.toNat = 0x07
      ∨ (op.toNat = 0x08 ∧ data.toNat = 0) := by
  have hop {n : Nat} (h : op.toNat = n) : op = BitVec.ofNat 8 n := by rw [← h, BitVec.ofNat_toNat, BitVec.setWidth_eq]
  have hai (h : ai.toNat = 0) : ai = 0 := BitVec.eq_of_toNat_eq h
  have hdata (h : data.toNat = 0) : data = 0 := BitVec.eq_of_toNat_eq h
  constructor
  · rintro ⟨i, hrow⟩
    cases hrow with
    | reset | timer | adcdone | hdone | step => exact .inl ⟨by decide, rfl, rfl⟩
    | rxb b => exact .inr (.inl ⟨rfl, rfl, setWidth_toNat_lt b⟩)
    | enc k w h => exact .inr (.inr (.inl ⟨rfl, h⟩))
    | adc c v h => exact .inr (.inr (.inr (.inl ⟨rfl, h, setWidth_toNat_lt v⟩)))
    | wr a v => exact .inr (.inr (.inr (.inr (.inl rfl))))
    | rd a => exact .inr (.inr (.inr (.inr (.inr ⟨rfl, rfl⟩))))
  · rintro (⟨hplain, ha, hd⟩ | ⟨ho, ha, hd⟩ | ⟨ho, ha⟩ | ⟨ho, ha, hd⟩ | ho | ⟨ho, hd⟩)
    · obtain rfl := hai ha
      obtain rfl := hdata hd
      simp only [List.mem_cons, List.not_mem_nil, or_false] at hplain
      rcases hplain with ho | ho | ho | ho | ho <;> obtain rfl := hop ho
      · exact ⟨_, .reset⟩
      · exact ⟨_, .timer⟩
      · exact ⟨_, .adcdone⟩
      · exact ⟨_, .hdone⟩
      · exact ⟨_, .step⟩
    · obtain rfl := hop ho
      obtain rfl := hai ha
      obtain ⟨b, rfl⟩ := exists_eq_setWidth hd
      exact ⟨_, .rxb b⟩
    · obtain rfl := hop ho
      exact ⟨_, .enc ai data ha⟩
    · obtain rfl := hop ho
      obtain ⟨v, rfl⟩ := exists_eq_setWidth hd
      exact ⟨_, .adc ai v ha⟩
    · obtain rfl := hop ho
      exact ⟨_, .wr ai data⟩
    · obtain rfl := hop ho
      obtain rfl := hdata hd
      exact ⟨_, .rd ai⟩

/-- Settles O38: the word decodes when its fields have a row, and the fields are the quotients and remainders of R134. -/
theorem transactionDecodesIffWellFormed : Obligations.TransactionDecodesIffWellFormed := by
  intro w
  have hop : (txnOp w).toNat = w.toNat / 2 ^ 56 := by
    rw [txnOp, BitVec.extractLsb'_toNat, Nat.shiftRight_eq_div_pow, Nat.mod_eq_of_lt]
    have := w.isLt
    omega
  have hai : (txnAi w).toNat = w.toNat / 2 ^ 48 % 2 ^ 8 := by
    rw [txnAi, BitVec.extractLsb'_toNat, Nat.shiftRight_eq_div_pow]
  have hrsv : txnRsv w = 0 ↔ w.toNat / 2 ^ 32 % 2 ^ 16 = 0 := by
    rw [txnRsv, BitVec.toNat_eq, BitVec.extractLsb'_toNat, Nat.shiftRight_eq_div_pow]
    rfl
  have hdata : (txnData w).toNat = w.toNat % 2 ^ 32 := by
    rw [txnData, BitVec.extractLsb'_toNat, Nat.shiftRight_zero]
  simp only [decode_txn_eq_ok_iff, exists_and_left, exists_txnRow_iff, hop, hai, hrsv, hdata]
  rfl

/-! ### The sample words -/

/-- A word or code that is the encoding of a well-formed instruction decodes to it. -/
theorem decode_of_encode_eq {e : Encoded} {i : Instr} (h : encode i = e ∧ i.wellFormed = true) : decode e = .ok i := by
  obtain ⟨rfl, hwf⟩ := h
  exact decodeOfEncode i hwf

theorem SeqCode.bits_toNat_lt (x : SeqCode) : x.bits.toNat < 14 := by cases x <;> decide

theorem FramerCode.bits_toNat_lt (x : FramerCode) : x.bits.toNat < 5 := by cases x <;> decide

theorem ModeCode.bits_toNat_lt (x : ModeCode) : x.bits.toNat < 6 := by cases x <;> decide

theorem InputCode.bits_toNat_lt (x : InputCode) : x.bits.toNat < 2 := by cases x <;> decide

theorem CalphCode.bits_toNat_lt (x : CalphCode) : x.bits.toNat < 6 := by cases x <;> decide

/-- Settles O39: each sample is the encoding of its instruction, and a code that decodes is the number of what it names. -/
theorem sampleWordsDecode : Obligations.SampleWordsDecode := by
  refine ⟨fun p hp => decode_of_encode_eq ?_, fun p hp => decode_of_encode_eq ?_, fun p hp => decode_of_encode_eq ?_,
    fun p hp => decode_of_encode_eq ?_, fun p hp => decode_of_encode_eq ?_, fun p hp => decode_of_encode_eq ?_,
    fun i => ⟨fun c hc h => ?_, fun c hc h => ?_, fun c hc h => ?_, fun c hc h => ?_, fun c hc h => ?_⟩⟩
  case refine_1 | refine_2 | refine_3 | refine_4 | refine_5 | refine_6 => revert p; decide
  · obtain ⟨x, rfl, -⟩ := decode_seq_eq_ok_iff.1 h
    exact absurd x.bits_toNat_lt (Nat.not_lt.2 hc)
  · obtain ⟨x, rfl, -⟩ := decode_framer_eq_ok_iff.1 h
    exact absurd x.bits_toNat_lt (Nat.not_lt.2 hc)
  · obtain ⟨x, rfl, -⟩ := decode_mode_eq_ok_iff.1 h
    exact absurd x.bits_toNat_lt (Nat.not_lt.2 hc)
  · obtain ⟨x, rfl, -⟩ := decode_input_eq_ok_iff.1 h
    exact absurd x.bits_toNat_lt (Nat.not_lt.2 hc)
  · obtain ⟨x, rfl, -⟩ := decode_calph_eq_ok_iff.1 h
    exact absurd x.bits_toNat_lt (Nat.not_lt.2 hc)

end Sys2Proof

namespace Sys2Proof.Machine

open Sys2Proof

/-! ### RUN stops -/

/-- A payload byte in Receive has its place: the index is below a length of at most MAX_FRAME (41_framer.md R206). -/
def FramerRegs.Placed (f : FramerRegs) : Prop :=
  f.fstate = .receive → f.fidx.toNat < f.flen.toNat ∧ f.flen.toNat ≤ maxFrame

/-- What a RUN relies on, kept by every STEP: a motor step names a motor, a drain returns to a continuation, and a payload
byte has its place in the buffer. -/
structure State.Runnable (s : State) : Prop where
  motorIdx  : s.seq.code = .motor ∨ s.seq.code = .pollD → s.seq.idx ≠ 2
  drainRet  : s.seq.code = .drain → s.drainRet ∈ drainReturns
  receiving : s.framer.Placed

theorem Legal.runnable {s : State} (h : Legal s) : s.Runnable :=
  ⟨h.motorIdx, fun hd => h.drainRet (.inl hd), h.receiving⟩

/-- The STEPs from a position to the end of the tick, when no poll takes a receive flag (40_scheduler.md R184). A drain is
counted by its continuation (`stepsFrom`); a callback is a hold. -/
def stepsToIdle : SeqCode → Fin 3 → Nat
  | .idle, _ | .drain, _ | .callback, _ => 0
  | .adcStart, _ => 18
  | .drainB, _ => 17
  | .enc, k => 15 - 2 * k.val
  | .pollC, k => 14 - 2 * k.val
  | .inputOvr, _ => 9
  | .motor, k => 8 - 2 * k.val
  | .pollD, k => 7 - 2 * k.val
  | .adcWait, _ => 4
  | .afe, _ => 3
  | .cal, _ => 2
  | .swap, _ => 1

/-- The STEPs from a position, a drain without bytes being one STEP before its continuation. -/
def stepsFrom (ret p : SeqPos) : Nat :=
  if p.code = .drain then 1 + stepsToIdle ret.code ret.idx else stepsToIdle p.code p.idx

theorem stepsFrom_drain {ret p : SeqPos} (h : p.code = .drain) : stepsFrom ret p = 1 + stepsToIdle ret.code ret.idx :=
  if_pos h

theorem stepsFrom_of_ne_drain {c : SeqCode} {ret p : SeqPos} (h : p.code = c) (hc : c ≠ .drain) :
    stepsFrom ret p = stepsToIdle c p.idx := by
  subst h
  exact if_neg hc

/-- A bound of the STEPs until a hold: those from the position, one for each byte, two for the drain a pending flag starts,
and those of a requested tick. -/
def stepBound (s : State) : Nat :=
  stepsFrom s.drainRet s.seq + s.ports.rxFifo.length + 2 * s.rxFlag.toNat + 20 * s.tickPending.toNat

/-- `t` is what a STEP may leave of `s`: runnable, and nearer to a hold. -/
structure State.Advances (s t : State) : Prop where
  runnable : t.Runnable
  nearer   : stepBound t < stepBound s

/-- `t` is as `s` in all that bounds a RUN, the position included. -/
structure State.KeepsRun (s t : State) : Prop where
  seq         : t.seq = s.seq
  drainRet    : t.drainRet = s.drainRet
  tickPending : t.tickPending = s.tickPending
  rxFlag      : t.rxFlag = s.rxFlag
  rxFifo      : t.ports.rxFifo = s.ports.rxFifo
  framer      : t.framer = s.framer

theorem State.KeepsRun.refl (s : State) : s.KeepsRun s := ⟨rfl, rfl, rfl, rfl, rfl, rfl⟩

theorem State.KeepsRun.trans {s t u : State} (h : s.KeepsRun t) (h' : t.KeepsRun u) : s.KeepsRun u :=
  ⟨h'.seq.trans h.seq, h'.drainRet.trans h.drainRet, h'.tickPending.trans h.tickPending, h'.rxFlag.trans h.rxFlag,
    h'.rxFifo.trans h.rxFifo, h'.framer.trans h.framer⟩

theorem State.KeepsRun.ite {s t u : State} {p : Prop} [Decidable p] (ht : s.KeepsRun t) (hu : s.KeepsRun u) :
    s.KeepsRun (if p then t else u) := by
  split
  · exact ht
  · exact hu

/-! #### What the bodies of the micro-operations keep -/

theorem keepsRun_encoderUpdate (k : Fin 3) (s : State) : s.KeepsRun (encoderUpdate k s) := by
  have hclear : s.KeepsRun (clearLast s) := by
    rw [clearLast_eq]
    exact ⟨rfl, rfl, rfl, rfl, rfl, rfl⟩
  have hunwrap (raw : W16) (u : State) : u.KeepsRun (unwrapSample k raw u) := by
    obtain ⟨n, l, t, p, h⟩ := unwrapSample_frame k raw u
    rw [h]
    exact ⟨rfl, rfl, rfl, rfl, rfl, rfl⟩
  exact .ite (hclear.trans (hunwrap _ _)) hclear

theorem keepsRun_analogFrontEnd (s : State) : s.KeepsRun (analogFrontEnd s) := by
  rw [analogFrontEnd_frame]
  exact ⟨rfl, rfl, rfl, rfl, rfl, rfl⟩

theorem keepsRun_motorControl (m : Fin 2) (s : State) : s.KeepsRun (motorControl m s) := by
  rw [motorControl, motorStepIn_frame]
  exact ⟨rfl, rfl, rfl, rfl, rfl, rfl⟩

theorem keepsRun_inputOverride (s : State) : s.KeepsRun (inputOverride s) := by
  rw [inputOverride_eq]
  exact .ite ⟨rfl, rfl, rfl, rfl, rfl, rfl⟩ (.refl s)

theorem keepsRun_calTick (s : State) : s.KeepsRun (calTick s) := by
  rcases calTick_cases s with ⟨-, h⟩ | ⟨-, h⟩ <;> rw [h]
  · rw [calPhaseBody_frame]
    exact ⟨rfl, rfl, rfl, rfl, rfl, rfl⟩
  · exact ⟨rfl, rfl, rfl, rfl, rfl, rfl⟩

/-! #### The moves of the sequencer -/

/-- A move to an earlier distance from the end of the tick, the rest of the bound kept. -/
theorem State.Runnable.advances_goto {s u : State} (hs : s.Runnable) (hu : s.KeepsRun u) {p : SeqPos}
    (hdrain : p.code ≠ .drain) (hmotor : p.code = .motor ∨ p.code = .pollD → p.idx ≠ 2)
    (hlt : stepsToIdle p.code p.idx < stepsFrom s.drainRet s.seq) : s.Advances (u.goto p) where
  runnable := ⟨hmotor, fun h => absurd h hdrain, by simpa only [State.goto_framer, hu.framer] using hs.receiving⟩
  nearer := by
    simp only [stepBound, State.goto_seq, State.goto_drainRet, State.goto_ports, State.goto_rxFlag,
      State.goto_tickPending, hu.rxFifo, hu.rxFlag, hu.tickPending, stepsFrom_of_ne_drain rfl hdrain]
    omega

/-- A move to a later code of the tick with the index kept. -/
theorem State.Runnable.advances_gotoCode {s u : State} (hs : s.Runnable) (hu : s.KeepsRun u) {c : SeqCode}
    (hdrain : c ≠ .drain) (hmotor : c = .motor ∨ c = .pollD → s.seq.idx ≠ 2)
    (hlt : stepsToIdle c s.seq.idx < stepsFrom s.drainRet s.seq) : s.Advances (u.gotoCode c) := by
  rw [← hu.seq] at hmotor
  rw [← congrArg SeqPos.idx hu.seq] at hlt
  exact hs.advances_goto (p := ⟨c, u.seq.idx⟩) hu hdrain hmotor hlt

/-- A return to a continuation (41_framer.md R217). -/
theorem State.Runnable.advances_return {s : State} (hs : s.Runnable) {p : SeqPos} (hp : p ∈ drainReturns)
    (hlt : stepsToIdle p.code p.idx < stepsFrom s.drainRet s.seq) : s.Advances (s.goto p) := by
  obtain ⟨-, hdrain, -, hmotor⟩ := drainReturns_spec hp
  exact hs.advances_goto (.refl s) hdrain hmotor hlt

/-- A drain entry that returns to an earlier distance; a pending flag pays for the entry (41_framer.md R214, R215). -/
theorem State.Runnable.advances_drain {s : State} (hs : s.Runnable) {p : SeqPos} (hp : p ∈ drainReturns)
    (hlt : 1 + stepsToIdle p.code p.idx < stepsFrom s.drainRet s.seq + 2 * s.rxFlag.toNat) :
    s.Advances { s with rxFlag := false, drainFrames := 0, drainRet := p, seq := { s.seq with code := .drain } } where
  runnable := ⟨by simp, fun _ => hp, hs.receiving⟩
  nearer := by
    simp only [stepBound, Bool.toNat_false, stepsFrom_drain]
    omega

theorem State.Runnable.advances_enterDrain {s : State} (hs : s.Runnable) {p : SeqPos} (hp : p ∈ drainReturns)
    (hlt : 1 + stepsToIdle p.code p.idx < stepsFrom s.drainRet s.seq) : s.Advances (enterDrain p s) := by
  rw [enterDrain_eq]
  split
  · exact hs.advances_drain hp (by omega)
  · exact hs.advances_return hp (by omega)

theorem State.Runnable.advances_poll {s : State} (hs : s.Runnable) {p : SeqPos} (hp : p ∈ drainReturns)
    (hlt : stepsToIdle p.code p.idx < stepsFrom s.drainRet s.seq) : s.Advances (poll p s) := by
  rw [poll_eq]
  split
  · next h => exact hs.advances_drain hp (by rw [h.2, Bool.toNat_true]; omega)
  · exact hs.advances_return hp hlt

/-- A requested tick pays for the STEPs of its start (40_scheduler.md R171). -/
theorem State.Runnable.advances_enterTick {s : State} (hs : s.Runnable) (hc : s.seq.code = .idle)
    (htick : s.tickPending = true) : s.Advances (enterTick s) where
  runnable := by
    rw [enterTick_eq]
    exact ⟨by simp, by simp, hs.receiving⟩
  nearer := by
    have hfrom : stepsFrom s.drainRet s.seq = 0 := stepsFrom_of_ne_drain hc (by decide)
    have hafter : stepsFrom s.drainRet { s.seq with code := .adcStart } = 18 := rfl
    simp only [enterTick_eq, stepBound, hfrom, hafter, htick, Bool.toNat_true, Bool.toNat_false]
    omega

/-! #### The drain -/

/-- A received byte leaves the sequencer in the drain, or hands over to the host (41_framer.md R202, R207). -/
theorem framerByteIn_code {f : FramerCode} {b : Byte} {s t : State} (h : framerByteIn f b s = .next t) :
    t.seq.code = s.seq.code ∨ t.seq.code = .callback := by
  cases f with
  | waitStart =>
    cases h
    unfold waitStartByte
    extract_lets
    split
    · exact .inl rfl
    · split
      · exact .inr rfl
      · exact .inl rfl
  | waitId =>
    cases h
    exact .inl rfl
  | waitLength =>
    cases h
    unfold waitLengthByte
    split
    · exact .inl rfl
    · split <;> exact .inl rfl
  | receive =>
    simp only [framerByteIn, receiveByte] at h
    split at h
    · cases h
      split
      · exact .inr rfl
      · exact .inl rfl
    · cases h
  | unload =>
    cases h
    unfold unloadByte
    extract_lets
    split <;> exact .inl rfl

theorem waitStartByte_placed {s : State} (hs : s.framer.Placed) (b : Byte) : (waitStartByte b s).framer.Placed := by
  unfold waitStartByte
  extract_lets
  split
  · rintro ⟨⟩
  · split <;> exact hs

/-- A length that starts Receive is valid, and above the index 0 (41_framer.md R204, R205). -/
theorem waitLengthByte_placed (b : Byte) (s : State) : (waitLengthByte b s).framer.Placed := by
  unfold waitLengthByte
  split
  · rintro ⟨⟩
  · next hlen =>
    have hzero : (0 : Byte).toNat = 0 := rfl
    have hplaced : (0 : Byte).toNat < b.toNat ∧ b.toNat ≤ maxFrame := by omega
    split
    · exact fun _ => hplaced
    · rintro ⟨⟩

/-- The byte that makes the index the length ends the frame; before it the index stays below (41_framer.md R206). -/
theorem receiveByte_placed {b : Byte} {s t : State} (hf : s.framer.fstate = .receive) (hs : s.framer.Placed)
    (h : receiveByte b s = .next t) : t.framer.Placed := by
  obtain ⟨hidx, hlen⟩ := hs hf
  unfold receiveByte at h
  split at h
  · cases h
    split
    · rintro ⟨⟩
    · next hi =>
      have hne : (s.framer.fidx + 1).toNat ≠ s.framer.flen.toNat := fun h => hi (BitVec.eq_of_toNat_eq h)
      have hle : (s.framer.fidx + 1).toNat ≤ s.framer.fidx.toNat + 1 := by
        rw [BitVec.toNat_add]
        exact Nat.mod_le _ _
      have hplaced : (s.framer.fidx + 1).toNat < s.framer.flen.toNat ∧ s.framer.flen.toNat ≤ maxFrame := by omega
      exact fun _ => hplaced
  · cases h

theorem unloadByte_placed {s : State} (hs : s.framer.Placed) : (unloadByte s).framer.Placed := by
  unfold unloadByte
  extract_lets
  split
  · rintro ⟨⟩
  · exact hs

theorem framerByteIn_placed {b : Byte} {s t : State} (hs : s.framer.Placed)
    (h : framerByteIn s.framer.fstate b s = .next t) : t.framer.Placed := by
  cases hf : s.framer.fstate with
  | waitStart =>
    rw [hf] at h
    cases h
    exact waitStartByte_placed hs b
  | waitId =>
    rw [hf] at h
    cases h
    rintro ⟨⟩
  | waitLength =>
    rw [hf] at h
    cases h
    exact waitLengthByte_placed b s
  | receive =>
    rw [hf] at h
    exact receiveByte_placed hf hs h
  | unload =>
    rw [hf] at h
    cases h
    exact unloadByte_placed hs

/-- A taken byte pays for its STEP; what it leaves is the same drain, or a hold (41_framer.md R200, R216). -/
theorem State.Runnable.advances_byte {s t : State} {b : Byte} {rest : List Byte} (hs : s.Runnable)
    (hc : s.seq.code = .drain) (hfifo : s.ports.rxFifo = b :: rest)
    (ht : framerByteIn s.framer.fstate b { s with ports := { s.ports with rxFifo := rest } } = .next t) : s.Advances t := by
  have hcode : t.seq.code = .drain ∨ t.seq.code = .callback := (framerByteIn_code ht).imp_left fun h => h.trans hc
  have hplaced := framerByteIn_placed (s := { s with ports := { s.ports with rxFifo := rest } }) hs.receiving ht
  have hframe := framerByteIn_frame ht
  have hret : t.drainRet = s.drainRet := by rw [hframe]
  have hrest : t.ports.rxFifo = rest := by rw [hframe]
  have hflag : t.rxFlag = s.rxFlag := by rw [hframe]
  have htick : t.tickPending = s.tickPending := by rw [hframe]
  have hfrom : stepsFrom t.drainRet t.seq ≤ stepsFrom s.drainRet s.seq := by
    rw [hret, stepsFrom_drain hc]
    rcases hcode with h | h
    · exact (stepsFrom_drain h).le
    · rw [stepsFrom_of_ne_drain h (by decide)]
      exact Nat.zero_le _
  constructor
  · refine ⟨?_, fun _ => hret ▸ hs.drainRet hc, hplaced⟩
    rcases hcode with h | h <;> simp [h]
  · simp only [stepBound, hrest, hflag, htick, hfifo, List.length_cons]
    omega

/-- The drain takes a byte, or returns to its continuation (41_framer.md R216, R217). -/
theorem State.Runnable.advances_drainStep {s : State} (hs : s.Runnable) (hc : s.seq.code = .drain) :
    ∃ t, drainStep s = .next t ∧ s.Advances t := by
  have hend : s.Advances (s.goto s.drainRet) :=
    hs.advances_return (hs.drainRet hc) (by rw [stepsFrom_drain hc]; omega)
  by_cases hl : s.drainFrames.toNat < s.cfg.framesPerDrain
  · cases hfifo : s.ports.rxFifo with
    | nil => exact ⟨_, drainStep_end (.inl hfifo), hend⟩
    | cons b rest =>
      have hplace (h : s.framer.fstate = .receive) : s.framer.fidx.toNat < maxFrame := by
        obtain ⟨hidx, hlen⟩ := hs.receiving h
        exact hidx.trans_le hlen
      obtain ⟨t, ht⟩ := framerByteIn_next s.framer.fstate b { s with ports := { s.ports with rxFifo := rest } } hplace
      exact ⟨t, (drainStep_byte hfifo hl).trans ht, hs.advances_byte hc hfifo ht⟩
  · exact ⟨_, drainStep_end (.inr (Nat.not_lt.1 hl)), hend⟩

/-! #### The STEP -/

theorem afterPollC_mem (k : Fin 3) : afterPollC k ∈ drainReturns := by
  revert k
  decide

theorem afterPollD_mem (k : Fin 3) : afterPollD k ∈ drainReturns := by
  revert k
  decide

theorem stepsToIdle_afterPollC (k : Fin 3) : stepsToIdle (afterPollC k).code (afterPollC k).idx < stepsToIdle .pollC k := by
  revert k
  decide

theorem stepsToIdle_afterPollD {k : Fin 3} (h : k ≠ 2) :
    stepsToIdle (afterPollD k).code (afterPollD k).idx < stepsToIdle .pollD k := by
  revert k
  decide

theorem stepsToIdle_pollC_lt (k : Fin 3) : stepsToIdle .pollC k < stepsToIdle .enc k := by
  revert k
  decide

theorem stepsToIdle_pollD_lt (k : Fin 3) : stepsToIdle .pollD k < stepsToIdle .motor k := by
  revert k
  decide

/-- At no hold the micro-operation of the position completes, and the core is runnable and nearer to a hold. -/
theorem State.Runnable.advances_microOp {s : State} (hs : s.Runnable) (hhold : ¬ atHold s = true) {c : SeqCode}
    (hc : s.seq.code = c) : ∃ t, microOp c s = .next t ∧ s.Advances t := by
  have hfrom := stepsFrom_of_ne_drain (ret := s.drainRet) hc
  rw [atHold_iff, hc] at hhold
  cases c with
  | idle =>
    have htick : s.tickPending = true := by simpa using hhold
    exact ⟨_, congrArg Host.Outcome.next (if_pos htick), hs.advances_enterTick hc htick⟩
  | adcStart =>
    have hkeep : s.KeepsRun ((s.putAdcReady false).emit .adcStart) := ⟨rfl, rfl, rfl, rfl, rfl, rfl⟩
    exact ⟨_, rfl, hs.advances_gotoCode hkeep (by decide) (by simp) (by simp [hfrom, stepsToIdle])⟩
  | drainB => exact ⟨_, rfl, hs.advances_enterDrain (by decide) (by simp [hfrom, stepsToIdle])⟩
  | enc =>
    exact ⟨_, rfl, hs.advances_gotoCode (keepsRun_encoderUpdate _ s) (by decide) (by simp)
      (by simpa [hfrom] using stepsToIdle_pollC_lt s.seq.idx)⟩
  | pollC =>
    exact ⟨_, rfl, hs.advances_poll (afterPollC_mem _) (by simpa [hfrom] using stepsToIdle_afterPollC s.seq.idx)⟩
  | inputOvr =>
    exact ⟨_, rfl, hs.advances_goto (keepsRun_inputOverride s) (by decide) (by decide) (by simp [hfrom, stepsToIdle])⟩
  | motor =>
    have hidx : s.seq.idx ≠ 2 := hs.motorIdx (.inl hc)
    obtain ⟨m, hm⟩ := motorOf_eq_some hidx
    refine ⟨(motorControl m s).gotoCode .pollD, by simp only [microOp, execSeqMotor, onMotor, hm], ?_⟩
    exact hs.advances_gotoCode (keepsRun_motorControl m s) (by decide) (fun _ => hidx)
      (by simpa [hfrom] using stepsToIdle_pollD_lt s.seq.idx)
  | pollD =>
    have hidx : s.seq.idx ≠ 2 := hs.motorIdx (.inr hc)
    exact ⟨_, rfl, hs.advances_poll (afterPollD_mem _) (by simpa [hfrom] using stepsToIdle_afterPollD hidx)⟩
  | adcWait =>
    refine ⟨_, rfl, ?_⟩
    split
    · exact hs.advances_gotoCode (.refl s) (by decide) (by simp) (by simp [hfrom, stepsToIdle])
    · next hready =>
      have hpoll : s.rxEnabled = true ∧ s.rxFlag = true := by simpa [hready] using hhold
      rw [if_pos (Bool.and_eq_true_iff.2 hpoll), enterDrain_eq, if_pos hpoll.1]
      exact hs.advances_drain (by decide) (by simp [hfrom, hpoll.2, stepsToIdle])
  | afe =>
    exact ⟨_, rfl, hs.advances_gotoCode (keepsRun_analogFrontEnd s) (by decide) (by simp) (by simp [hfrom, stepsToIdle])⟩
  | cal =>
    exact ⟨_, rfl, hs.advances_gotoCode (keepsRun_calTick s) (by decide) (by simp) (by simp [hfrom, stepsToIdle])⟩
  | swap =>
    have hkeep : s.KeepsRun ((snapshotSwap s).emit .timerReset) := ⟨rfl, rfl, rfl, rfl, rfl, rfl⟩
    exact ⟨_, rfl, hs.advances_gotoCode hkeep (by decide) (by simp) (by simp [hfrom, stepsToIdle])⟩
  | drain => exact hs.advances_drainStep hc
  | callback => simp at hhold

/-- A RUN with as many STEPs as the bound reaches a hold. -/
theorem State.Runnable.asmRun_stops {n : Nat} {s : State} (hs : s.Runnable) (hn : stepBound s ≤ n) :
    ∃ t, asmRun n s = .next t ∧ atHold t = true := by
  induction n generalizing s with
  | zero =>
    refine ⟨s, rfl, by_contra fun hhold => ?_⟩
    obtain ⟨t, -, hadv⟩ := hs.advances_microOp hhold rfl
    exact absurd hadv.nearer (by omega)
  | succ n ih =>
    by_cases hhold : atHold s = true
    · exact ⟨s, if_pos hhold, hhold⟩
    · obtain ⟨t, ht, hadv⟩ := hs.advances_microOp hhold rfl
      obtain ⟨u, hu, hend⟩ := ih hadv.runnable (Nat.le_of_lt_succ (hadv.nearer.trans_le hn))
      have hstep : exec .step s = .next t := ht
      exact ⟨u, by rw [asmRun, if_neg hhold, hstep]; exact hu, hend⟩

theorem stepsToIdle_le (c : SeqCode) (k : Fin 3) : stepsToIdle c k ≤ 18 := by
  cases c <;> simp only [stepsToIdle] <;> omega

theorem stepBound_le (s : State) : stepBound s ≤ 41 + s.ports.rxFifo.length := by
  have hfrom : stepsFrom s.drainRet s.seq ≤ 19 := by
    have hseq := stepsToIdle_le s.seq.code s.seq.idx
    have hret := stepsToIdle_le s.drainRet.code s.drainRet.idx
    unfold stepsFrom
    split <;> omega
  have hflag := s.rxFlag.toNat_le
  have htick := s.tickPending.toNat_le
  unfold stepBound
  omega

/-- Settles O57: the invariant is runnable, and 64 with the bytes of the FIFO is above the bound. -/
theorem runAlwaysStops : Obligations.RunAlwaysStops := by
  intro s h
  have hbound := stepBound_le s
  exact h.runnable.asmRun_stops (by omega)

end Sys2Proof.Machine

/-! Settling the statements of the family 40_scheduler.md: each micro-operation of the scheduler, whole (R170 to R183), the
order of a tick (R184), where a tick starts (R185), and the model's two faults. -/

namespace Sys2Proof.Machine

open Sys2Proof

/-! ### The requests, the entries and the end of a tick -/

/-- Settles O2: TIMER writes one bit, the same each time. -/
theorem timerRequestsATick : Obligations.TimerRequestsATick := fun _ => ⟨rfl, rfl⟩

/-- Settles O11: the hold and the entry of a tick are the two branches of IDLE. -/
theorem tickEntryAndConversionStart : Obligations.TickEntryAndConversionStart :=
  fun s => ⟨congrArg Host.Outcome.next (by rw [enterTick_eq]), rfl⟩

theorem afterPollC_eq (k : Fin 3) :
    afterPollC k = if k = 0 then ⟨.enc, 1⟩ else if k = 1 then ⟨.enc, 2⟩ else ⟨.inputOvr, 0⟩ := by
  revert k
  decide

theorem afterPollD_eq (m : Fin 3) : afterPollD m = if m = 0 then ⟨.motor, 1⟩ else ⟨.adcWait, 0⟩ := by
  revert m
  decide

/-- Settles O12: DRAIN_B is a drain entry and the two polls are polls, each to the continuation of its index. -/
theorem drainEntriesAndPolls : Obligations.DrainEntriesAndPolls := by
  intro s drained afterC afterD
  have hpoll (p : SeqPos) :
      poll p s = if s.rxEnabled = true ∧ s.rxFlag = true then drained p else { s with seq := p } := poll_eq p s
  refine ⟨congrArg Host.Outcome.next (enterDrain_eq _ s), ?_, ?_⟩
  · have hnext : afterPollC s.seq.idx = afterC := afterPollC_eq _
    rw [← hnext, ← hpoll]
    rfl
  · have hnext : afterPollD s.seq.idx = afterD := afterPollD_eq _
    rw [← hnext, ← hpoll]
    rfl

/-- Settles O21: the three branches of ADC_WAIT, the second being a drain entry with reception enabled. -/
theorem adcWaitTakesConversionFirst : Obligations.AdcWaitTakesConversionFirst := by
  intro s
  refine congrArg Host.Outcome.next ?_
  by_cases hready : s.ports.adcReady = true
  · rw [if_pos hready, if_pos hready]
    rfl
  · rw [if_neg hready, if_neg hready]
    by_cases hpoll : s.rxEnabled = true ∧ s.rxFlag = true
    · rw [if_pos (Bool.and_eq_true_iff.2 hpoll), if_pos hpoll, enterDrain_eq, if_pos hpoll.1]
    · rw [if_neg (mt Bool.and_eq_true_iff.1 hpoll), if_neg hpoll]

/-- Settles O24: the copies, the two events and the move are the record updates of the swap and of the end of a tick. -/
theorem swapSnapshotsCommitsAndEnds : Obligations.SwapSnapshotsCommitsAndEnds := fun _ => rfl

/-! ### The input override -/

/-- Settles O16: only mode 1 overrides, each motor with its own limits. -/
theorem inputOverrideOnlyForEncoder3 : Obligations.InputOverrideOnlyForEncoder3 := by
  intro s r override
  refine congrArg Host.Outcome.next ?_
  rw [inputOverride_eq]
  by_cases hmode : s.mem.inputMode = 1
  · rw [if_pos hmode, if_pos hmode]
    rfl
  · rw [if_neg hmode, if_neg hmode]
    rfl

/-! ### The analog front-end -/

theorem Sign.toInt_eq (x : Sign) : x.toInt = if x = .neg then -1 else 1 := by
  cases x <;> rfl

/-- The new filter value of motor m's current (42_numeric_utils.md R234, 45_analog_derating.md R312). -/
def filteredCurrent (m : Fin 2) (s : State) : W32 :=
  BitVec.ofInt 32 (filterValue s.cfg.filtAlpha s.cfg.filtShift (s.filt.get m).toInt (signedCurrent m s))

theorem storeCurrent_eq (m : Fin 2) (s : State) :
    storeCurrent m s =
      { s with
        filt := s.filt.set m (filteredCurrent m s)
        meas := { s.meas with curr := s.meas.curr.set m (filteredCurrent m s) } } := by
  simp only [storeCurrent, filterStep_eq, Two.get_set, if_true, filteredCurrent]

theorem analogFrontEnd_of_pos {s : State} (h : 0 < voltOf s.cfg (s.ports.adcRaw.get 0)) :
    analogFrontEnd s =
      let v := voltOf s.cfg (s.ports.adcRaw.get 0)
      { s with
        meas := { s.meas with volt := BitVec.ofInt 32 v, curr := ⟨filteredCurrent 0 s, filteredCurrent 1 s⟩ }
        filt := ⟨filteredCurrent 0 s, filteredCurrent 1 s⟩
        drive := { s.drive with pwmLimit := derate s.cfg v } } := by
  simp only [analogFrontEnd, if_pos h, storeCurrent_eq]
  rfl

theorem analogFrontEnd_of_nonpos {s : State} (h : ¬ 0 < voltOf s.cfg (s.ports.adcRaw.get 0)) :
    analogFrontEnd s =
      { s with
        meas := { s.meas with volt := BitVec.ofInt 32 (voltOf s.cfg (s.ports.adcRaw.get 0)), curr := ⟨0, 0⟩ } } := by
  simp only [analogFrontEnd, if_neg h]

/-- Settles O22: a positive voltage stores the limit and both filtered currents, any other clears the currents. -/
theorem afeConvertsDeratesAndFilters : Obligations.AfeConvertsDeratesAndFilters := by
  intro s c wrapped volt current filtered f0 f1
  have hvolt : voltOf s.cfg (s.ports.adcRaw.get 0) = volt := rfl
  have hf0 : filteredCurrent 0 s = f0 := by
    simp only [filteredCurrent, signedCurrent, Sign.toInt_eq]
    rfl
  have hf1 : filteredCurrent 1 s = f1 := by
    simp only [filteredCurrent, signedCurrent, Sign.toInt_eq]
    rfl
  refine congrArg Host.Outcome.next ?_
  by_cases hpos : 0 < volt
  · rw [if_pos hpos, analogFrontEnd_of_pos hpos, hvolt, hf0, hf1]
    rfl
  · rw [if_neg hpos, analogFrontEnd_of_nonpos hpos, hvolt]
    rfl

/-! ### The encoder -/

/-- An accepted sample, with the position written out (43_encoder.md R255). -/
theorem acceptSample_eq (k : Fin 3) (raw t : W16) (s : State) :
    acceptSample k raw t s =
      { s with
        enc := { s.enc with noise := s.enc.noise.set k 0, last := s.enc.last.set k raw }
        meas :=
          { s.meas with
            turns := s.meas.turns.set k t
            pos := s.meas.pos.set k
              (BitVec.ofInt 32 ((s.mem.encMult.get k).toInt * (t.toInt * 65536 + raw.toInt) / 65536)) } } := by
  have hpos : BitVec.ofInt 32 (qmul (s.mem.encMult.get k).toInt (t.toInt * turn + raw.toInt)) =
      BitVec.ofInt 32 ((s.mem.encMult.get k).toInt * (t.toInt * 65536 + raw.toInt) / 65536) := ofInt_wrap32 _
  simp only [acceptSample, hpos]

theorem sub_one_eq_ofInt (t : W16) : t - 1 = BitVec.ofInt 16 (t.toInt - 1) := by
  rw [Int.sub_eq_add_neg, BitVec.ofInt_add, BitVec.ofInt_toInt, BitVec.sub_eq_add_neg]
  rfl

theorem add_one_eq_ofInt (t : W16) : t + 1 = BitVec.ofInt 16 (t.toInt + 1) := by
  rw [BitVec.ofInt_add, BitVec.ofInt_toInt]
  rfl

/-- Below its limit the noise counter counts without a wrap of its four bits (43_encoder.md R254). -/
theorem noise_succ_toNat {n : BitVec 4} (h : n.toNat < noiseLimit) : (n + 1).toNat = n.toNat + 1 := by
  have hn : n.toNat < 10 := h
  rw [BitVec.toNat_add]
  exact Nat.mod_eq_of_lt (by simp; omega)

/-- The four outcomes of a valid sample: a turn down, a turn up, a discarded or an accepted sample (43_encoder.md R253,
R254). -/
theorem unwrapSample_eq {k : Fin 3} {s : State} (h : (s.enc.noise.get k).toNat < noiseLimit) (raw : W16) :
    unwrapSample k raw s =
      let delta := raw.toInt - (s.enc.last.get k).toInt
      let t := s.meas.turns.get k
      if 49152 < delta then acceptSample k raw (BitVec.ofInt 16 (t.toInt - 1)) s
      else if delta < -49152 then acceptSample k raw (BitVec.ofInt 16 (t.toInt + 1)) s
      else if 16384 < max delta (-delta) ∧ (s.enc.noise.get k).toNat + 1 < 10 then
        { s with enc := { s.enc with noise := s.enc.noise.set k (s.enc.noise.get k + 1) } }
      else acceptSample k raw t s := by
  simp only [unwrapSample, q3_eq, q1_eq, iabs_eq_max, sub_one_eq_ofInt, add_one_eq_ofInt, noise_succ_toNat h, noiseLimit,
    ite_and]

/-- The encoder step changes the encoder registers and the measurements only (43_encoder.md R256). -/
theorem encoderUpdate_frame (k : Fin 3) (s : State) : ∃ e m, encoderUpdate k s = { s with enc := e, meas := m } := by
  have hunwrap (raw : W16) (u : State) : ∃ e m, unwrapSample k raw u = { u with enc := e, meas := m } := by
    obtain ⟨n, l, t, p, h⟩ := unwrapSample_frame k raw u
    exact ⟨_, _, h⟩
  simp only [encoderUpdate, clearLast_eq]
  split
  · exact hunwrap _ _
  · exact ⟨_, _, rfl⟩

/-- Settles O13: the last-known values are reset first; a valid sample then has the outcomes of `unwrapSample_eq`. -/
theorem encUnwrapsTheSample : Obligations.EncUnwrapsTheSample := by
  intro s hnoise k last w a16 raw delta turns next accepted
  have hraw : rawAngle s.cfg.encShift s.cfg.encBits (s.mem.encOff.get k) w = raw := by
    rw [rawAngle, angle16_eq]
  let cleared : State := { s with enc := { s.enc with last := last, resetLast := false } }
  have haccept (t : W16) : (acceptSample k raw t cleared).gotoCode .pollC = accepted t := by
    rw [acceptSample_eq]
    rfl
  have hupdate : encoderUpdate k s = if encValid s.cfg.encAccept w = true then unwrapSample k raw cleared else cleared := by
    rw [← hraw, encoderUpdate, clearLast_eq]
  refine congrArg Host.Outcome.next ?_
  change (encoderUpdate k s).gotoCode .pollC = _
  rw [hupdate]
  by_cases hvalid : encValid s.cfg.encAccept w = true
  · rw [if_pos hvalid, if_neg (ne_false_of_eq_true hvalid), unwrapSample_eq (k := k) (s := cleared) hnoise]
    simp only [apply_ite (State.gotoCode · .pollC), haccept]
    rfl
  · rw [if_neg hvalid, if_pos (eq_false_of_ne_true hvalid)]
    rfl

/-! ### The two faults -/

/-- A motor step on a motor the block does not have (40_scheduler.md R177). -/
theorem onMotor_of_idx_two (f : Fin 2 → State → State) {s : State} (h : s.seq.idx = 2) :
    onMotor f s = .fault .noSuchMotor := by
  simp [onMotor, h, motorOf]

/-- A payload byte with no place in the buffer (20_memory.md R104). -/
theorem receiveByte_of_full {s : State} (h : 128 ≤ s.framer.fidx.toNat) (b : Byte) :
    receiveByte b s = .fault .bufferBounds :=
  if_neg (Nat.not_lt.2 h)

theorem onMotor_ne_refused (f : Fin 2 → State → State) (s : State) (r : Refusal) : onMotor f s ≠ .refused r := by
  unfold onMotor
  split <;> nofun

theorem framerByteIn_ne_refused (f : FramerCode) (b : Byte) (s : State) (r : Refusal) :
    framerByteIn f b s ≠ .refused r := by
  cases f with
  | receive =>
    simp only [framerByteIn, receiveByte]
    split <;> nofun
  | waitStart | waitId | waitLength | unload => nofun

theorem framerInstr_ne_refused (f : FramerCode) (s : State) (r : Refusal) : framerInstr f s ≠ .refused r := by
  unfold framerInstr
  split
  · exact framerByteIn_ne_refused _ _ _ r
  · nofun

theorem drainStep_ne_refused (s : State) (r : Refusal) : drainStep s ≠ .refused r := by
  unfold drainStep
  split
  · split
    · exact framerByteIn_ne_refused _ _ _ r
    · nofun
  · nofun

theorem microOp_ne_refused (c : SeqCode) (s : State) (r : Refusal) : microOp c s ≠ .refused r := by
  cases c with
  | motor => exact onMotor_ne_refused (fun m t => (motorControl m t).gotoCode .pollD) s r
  | drain => exact drainStep_ne_refused s r
  | _ => nofun

theorem exec_ne_refused (i : Instr) (s : State) (r : Refusal) : exec i s ≠ .refused r := by
  cases i with
  | enc k w =>
    simp only [exec, execEnc]
    split <;> nofun
  | adc c v =>
    simp only [exec, execAdc]
    split <;> nofun
  | step => exact microOp_ne_refused _ s r
  | seqMotor => exact microOp_ne_refused .motor s r
  | seqDrain => exact microOp_ne_refused .drain s r
  | framerWaitStart | framerWaitId | framerWaitLength | framerReceive | framerUnload => exact framerInstr_ne_refused _ s r
  | modePosition | modePwm | modeCurrent | modePosCurr | modeDeflection | modeDeflCurr => exact onMotor_ne_refused _ s r
  | _ => nofun

/-- STEP is the micro-operation of the position (47_host_interface.md R372). -/
theorem exec_step_of_code {s : State} {c : SeqCode} (h : s.seq.code = c) : exec .step s = microOp c s :=
  congrArg (microOp · s) h

theorem exec_seqMotor (s : State) : exec .seqMotor s = onMotor (fun m t => (motorControl m t).gotoCode .pollD) s := rfl

/-- Settles O45: a third motor and a full buffer fault through every instruction that reaches them, and no instruction is
refused. -/
theorem stopsOutsideTheRegisterRanges : Obligations.StopsOutsideTheRegisterRanges := by
  refine ⟨fun s hidx => ?_, fun s hfull hfifo => ?_, exec_ne_refused⟩
  · have hmotor : exec .seqMotor s = .fault .noSuchMotor := (exec_seqMotor s).trans (onMotor_of_idx_two _ hidx)
    refine ⟨hmotor, fun hc => (exec_step_of_code hc).trans hmotor, fun c => ?_⟩
    cases c <;> exact onMotor_of_idx_two _ hidx
  · obtain ⟨b, rest, hcons⟩ := List.exists_cons_of_ne_nil hfifo
    have hbyte : framerByteIn .receive b { s with ports := { s.ports with rxFifo := rest } } = .fault .bufferBounds :=
      receiveByte_of_full (s := { s with ports := { s.ports with rxFifo := rest } }) hfull b
    refine ⟨(framerInstr_byte hcons .receive).trans hbyte, fun hstate hframes => ?_⟩
    have hdrain : drainStep s = .fault .bufferBounds := by
      rw [drainStep_byte hcons hframes, hstate, hbyte]
    exact ⟨hdrain, fun hc => (exec_step_of_code hc).trans hdrain⟩

/-! ### Where a tick starts -/

theorem writeReg_seq (r : Reg) (v : W32) (s : State) : (writeReg r v s).seq = s.seq := by
  cases r with
  | cmdCalStart | cmdResetLast | rxReady =>
    simp only [writeReg, writeCalStart, writeResetLast, writeRxReady]
    split <;> rfl
  | _ => rfl

theorem regWrite_seq (a : Byte) (v : W32) (s : State) : (regWrite a v s).seq = s.seq := by
  cases h : regAt a with
  | none => rw [regWrite_of_reserved h]
  | some r => rw [regWrite_of_regAt h, writeReg_seq]

/-- Where a transaction leaves the sequencer: only RESET, HDONE and STEP move it (47_host_interface.md R360 to R372). -/
theorem exec_txn_seq {op ai : Byte} {data : W32} {i : Instr} {s t : State} (hrow : TxnRow op ai data i)
    (h : exec i s = .next t) :
    t.seq = s.seq ∨ (i = .reset ∧ t.seq = ⟨.idle, 0⟩) ∨ (i = .hdone ∧ t.seq.code = .drain) ∨ i = .step := by
  cases hrow with
  | reset =>
    cases h
    exact .inr (.inl ⟨rfl, rfl⟩)
  | timer | adcdone =>
    cases h
    exact .inl rfl
  | rxb b =>
    cases h
    rw [fifoPush_eq]
    split <;> exact .inl rfl
  | enc k w =>
    simp only [exec, execEnc] at h
    split at h <;> cases h <;> exact .inl rfl
  | adc c v =>
    simp only [exec, execAdc] at h
    split at h <;> cases h <;> exact .inl rfl
  | wr a v =>
    cases h
    split
    · exact .inl (regWrite_seq _ _ s)
    · exact .inl rfl
  | rd a =>
    cases h
    split <;> exact .inl rfl
  | hdone =>
    cases h
    split
    · exact .inr (.inr (.inl ⟨rfl, rfl⟩))
    · exact .inl rfl
  | step => exact .inr (.inr (.inr rfl))

/-- What a step that gives a next state did: nothing presented, a word ignored, or a transaction run
(47_host_interface.md R373). -/
theorem step_cases {s t : State} (h : step s = .next t) :
    t = s ∨ ∃ w rest, s.txns = w :: rest
      ∧ (t = { s with txns := rest } ∨ ∃ i, decodeTxn w = .ok i ∧ exec i { s with txns := rest } = .next t) := by
  unfold step fetch at h
  by_cases hvalid : s.cfg.valid = true
  · rw [if_pos hvalid] at h
    cases htxns : s.txns with
    | nil =>
      rw [htxns] at h
      cases h
      exact .inl rfl
    | cons w rest =>
      refine .inr ⟨w, rest, rfl, ?_⟩
      cases hdecode : decodeTxn w with
      | ok i =>
        simp only [htxns, decode, hdecode] at h
        exact .inr ⟨i, rfl, h⟩
      | error e =>
        simp only [htxns, decode, hdecode] at h
        cases h
        exact .inl rfl
  · rw [if_neg hvalid] at h
    cases h

theorem enterDrain_code_ne {c : SeqCode} {p : SeqPos} (hc : .drain ≠ c) (hp : p.code ≠ c) (s : State) :
    (enterDrain p s).seq.code ≠ c := by
  rw [enterDrain_eq]
  split
  · exact hc
  · exact hp

theorem poll_code_ne {c : SeqCode} {p : SeqPos} (hc : .drain ≠ c) (hp : p.code ≠ c) (s : State) :
    (poll p s).seq.code ≠ c := by
  rw [poll_eq]
  split
  · exact hc
  · exact hp

/-- A drain step starts no tick: a byte leaves the core in the drain or in a callback, and the end goes to the
continuation. -/
theorem drainStep_code_ne_adcStart {s t : State} (hc : s.seq.code ≠ .adcStart) (hret : s.drainRet.code ≠ .adcStart)
    (h : drainStep s = .next t) : t.seq.code ≠ .adcStart := by
  by_cases hl : s.drainFrames.toNat < s.cfg.framesPerDrain
  · cases hfifo : s.ports.rxFifo with
    | nil =>
      rw [drainStep_end (.inl hfifo)] at h
      cases h
      exact hret
    | cons b rest =>
      rw [drainStep_byte hfifo hl] at h
      rcases framerByteIn_code h with hcode | hcode <;> rw [hcode]
      · exact hc
      · decide
  · rw [drainStep_end (.inr (Nat.not_lt.1 hl))] at h
    cases h
    exact hret

/-- Of the micro-operations only IDLE enters ADC_START, and it takes the request (40_scheduler.md R171, R185). -/
theorem microOp_enters_adcStart {c : SeqCode} {s t : State} (hc : s.seq.code = c) (hne : c ≠ .adcStart)
    (hret : c = .drain → s.drainRet.code ≠ .adcStart) (h : microOp c s = .next t) (ht : t.seq.code = .adcStart) :
    c = .idle ∧ s.tickPending = true ∧ t.tickPending = false := by
  cases c with
  | idle =>
    cases h
    by_cases htick : s.tickPending = true
    · rw [if_pos htick]
      exact ⟨rfl, htick, rfl⟩
    · rw [if_neg htick, hc] at ht
      cases ht
  | adcStart => exact absurd rfl hne
  | drainB =>
    cases h
    exact absurd ht (enterDrain_code_ne (by decide) (by decide) s)
  | pollC =>
    cases h
    obtain ⟨-, -, hcode, -⟩ := drainReturns_spec (afterPollC_mem s.seq.idx)
    exact absurd ht (poll_code_ne (by decide) hcode s)
  | pollD =>
    cases h
    obtain ⟨-, -, hcode, -⟩ := drainReturns_spec (afterPollD_mem s.seq.idx)
    exact absurd ht (poll_code_ne (by decide) hcode s)
  | enc | inputOvr | afe | cal | swap =>
    cases h
    cases ht
  | motor =>
    simp only [microOp, execSeqMotor, onMotor] at h
    split at h <;> cases h
    cases ht
  | adcWait =>
    cases h
    split at ht
    · cases ht
    · split at ht
      · exact absurd ht (enterDrain_code_ne (by decide) (by decide) s)
      · rw [hc] at ht
        cases ht
  | drain => exact absurd ht (drainStep_code_ne_adcStart (by rw [hc]; decide) (hret rfl) h)
  | callback =>
    cases h
    rw [hc] at ht
    cases ht

/-- Settles O49: of the transactions only a STEP reaches ADC_START, and a drain of the invariant returns elsewhere. -/
theorem ticksStartOnlyFromIdle : Obligations.TicksStartOnlyFromIdle := by
  intro s t hlegal h ht hs
  rcases step_cases h with rfl | ⟨w, rest, -, rfl | ⟨i, hdecode, hexec⟩⟩
  · exact absurd ht hs
  · exact absurd ht hs
  · obtain ⟨-, hrow⟩ := txnRow_of_decodeTxn hdecode
    rcases exec_txn_seq hrow hexec with hseq | ⟨-, hseq⟩ | ⟨-, hcode⟩ | rfl
    · exact absurd (hseq ▸ ht) hs
    · rw [hseq] at ht
      cases ht
    · rw [hcode] at ht
      cases ht
    · have hret : s.seq.code = .drain → s.drainRet.code ≠ .adcStart := fun hdrain => by
        obtain ⟨-, -, hne, -⟩ := drainReturns_spec (hlegal.drainRet (.inl hdrain))
        exact hne
      exact microOp_enters_adcStart (s := { s with txns := rest }) rfl hs hret hexec ht

/-! ### The order of an empty tick -/

/-- STEPs lead from `s` through the positions of the list, one STEP each, to `t`. -/
def Visits (s : State) : List SeqPos → State → Prop
  | [], t => s = t
  | p :: ps, t => s.seq = p ∧ ∃ u, exec .step s = .next u ∧ Visits u ps t

theorem Visits.one {s t : State} {p : SeqPos} (hp : s.seq = p) (h : exec .step s = .next t) : Visits s [p] t :=
  ⟨hp, t, h, rfl⟩

theorem Visits.trans {s t u : State} {ps qs : List SeqPos} (h : Visits s ps t) (h' : Visits t qs u) :
    Visits s (ps ++ qs) u := by
  induction ps generalizing s with
  | nil =>
    cases h
    exact h'
  | cons p ps ih =>
    obtain ⟨hp, v, hstep, hv⟩ := h
    exact ⟨hp, v, hstep, ih hv⟩

theorem Visits.execTimes_eq {s t : State} {ps : List SeqPos} (h : Visits s ps t) :
    execTimes .step ps.length s = .next t := by
  induction ps generalizing s with
  | nil =>
    cases h
    rfl
  | cons p ps ih =>
    obtain ⟨-, v, hstep, hv⟩ := h
    simpa only [List.length_cons, execTimes, hstep] using ih hv

theorem Visits.visited_eq {s t : State} {ps : List SeqPos} (h : Visits s ps t) :
    visited ps.length s = ps ++ [t.seq] := by
  induction ps generalizing s with
  | nil =>
    cases h
    rfl
  | cons p ps ih =>
    obtain ⟨hp, v, hstep, hv⟩ := h
    simp only [List.length_cons, visited, hstep, ih hv, hp, List.cons_append]

/-- A state inside a tick with nothing received and no conversion done, at position `p` with trace `tr`. -/
structure QuietAt (p : SeqPos) (tr : List Event) (s : State) : Prop where
  seq         : s.seq = p
  trace       : s.trace = tr
  rxEnabled   : s.rxEnabled = true
  rxFlag      : s.rxFlag = false
  rxFifo      : s.ports.rxFifo = []
  adcReady    : s.ports.adcReady = false
  tickPending : s.tickPending = false

theorem QuietAt.idx {c : SeqCode} {k : Fin 3} {tr : List Event} {s : State} (h : QuietAt ⟨c, k⟩ tr s) : s.seq.idx = k :=
  congrArg SeqPos.idx h.seq

theorem QuietAt.exec_step {c : SeqCode} {k : Fin 3} {tr : List Event} {s : State} (h : QuietAt ⟨c, k⟩ tr s) :
    exec .step s = microOp c s :=
  exec_step_of_code (congrArg SeqPos.code h.seq)

theorem QuietAt.goto {p : SeqPos} {tr : List Event} {s : State} (h : QuietAt p tr s) (q : SeqPos) :
    QuietAt q tr (s.goto q) :=
  ⟨rfl, h.trace, h.rxEnabled, h.rxFlag, h.rxFifo, h.adcReady, h.tickPending⟩

theorem QuietAt.gotoCode {c : SeqCode} {k : Fin 3} {tr : List Event} {s : State} (h : QuietAt ⟨c, k⟩ tr s) (d : SeqCode) :
    QuietAt ⟨d, k⟩ tr (s.gotoCode d) :=
  ⟨congrArg (SeqPos.mk d) h.idx, h.trace, h.rxEnabled, h.rxFlag, h.rxFifo, h.adcReady, h.tickPending⟩

/-- Without a receive flag a poll goes straight to its continuation (41_framer.md R215). -/
theorem QuietAt.poll {p : SeqPos} {tr : List Event} {s : State} (h : QuietAt p tr s) (q : SeqPos) :
    QuietAt q tr (poll q s) := by
  rw [poll_eq, if_neg fun hpoll => by simp [h.rxFlag] at hpoll]
  exact h.goto q

/-- A motor step emits one PWM event, and changes else the accumulators and the drive registers only (44_motor_control.md
R270, R294). -/
theorem motorStepIn_emits (c : Option ModeCode) (m : Fin 2) (s : State) :
    ∃ p d dir mag, motorStepIn c m s = { s with pid := p, drive := d, trace := s.trace ++ [.pwm m dir mag] } := by
  unfold motorStepIn
  extract_lets r
  have hr : r.2 = { s with pid := r.2.pid } := modeCommand_frame c m s
  rw [hr]
  exact ⟨_, _, _, _, rfl⟩

/-- Sensor k: its sample is unwrapped and its poll goes on (40_scheduler.md R174, R175). -/
theorem QuietAt.sensor {k : Fin 3} {tr : List Event} {s : State} (h : QuietAt ⟨.enc, k⟩ tr s) :
    ∃ t, Visits s [⟨.enc, k⟩, ⟨.pollC, k⟩] t ∧ QuietAt (afterPollC k) tr t := by
  have hupdate : QuietAt ⟨.enc, k⟩ tr (encoderUpdate s.seq.idx s) := by
    obtain ⟨e, m, hframe⟩ := encoderUpdate_frame s.seq.idx s
    rw [hframe]
    exact ⟨h.seq, h.trace, h.rxEnabled, h.rxFlag, h.rxFifo, h.adcReady, h.tickPending⟩
  have hpoll := hupdate.gotoCode .pollC
  exact ⟨_, (Visits.one h.seq h.exec_step).trans (.one hpoll.seq hpoll.exec_step), hpoll.idx ▸ hpoll.poll _⟩

/-- The input override, whatever its mode (40_scheduler.md R176). -/
theorem QuietAt.override {k : Fin 3} {tr : List Event} {s : State} (h : QuietAt ⟨.inputOvr, k⟩ tr s) :
    ∃ t, Visits s [⟨.inputOvr, k⟩] t ∧ QuietAt ⟨.motor, 0⟩ tr t := by
  have hoverride : QuietAt ⟨.inputOvr, k⟩ tr (inputOverride s) := by
    rw [inputOverride_eq]
    split
    · exact ⟨h.seq, h.trace, h.rxEnabled, h.rxFlag, h.rxFifo, h.adcReady, h.tickPending⟩
    · exact h
  exact ⟨_, .one h.seq h.exec_step, hoverride.goto _⟩

/-- Motor m: its step emits one PWM event and its poll goes on (40_scheduler.md R177, R178). -/
theorem QuietAt.motor {m : Fin 2} {tr : List Event} {s : State} (h : QuietAt ⟨.motor, m.castSucc⟩ tr s) :
    ∃ t dir mag, Visits s [⟨.motor, m.castSucc⟩, ⟨.pollD, m.castSucc⟩] t
      ∧ QuietAt (afterPollD m.castSucc) (tr ++ [.pwm m dir mag]) t := by
  obtain ⟨p, d, dir, mag, hemits⟩ := motorStepIn_emits (modeCodeOf s.mem.ctrlMode) m s
  have hcontrol : QuietAt ⟨.motor, m.castSucc⟩ (tr ++ [.pwm m dir mag]) (motorControl m s) := by
    rw [motorControl, hemits, ← h.trace]
    exact ⟨h.seq, rfl, h.rxEnabled, h.rxFlag, h.rxFifo, h.adcReady, h.tickPending⟩
  have hpoll := hcontrol.gotoCode .pollD
  have hstep : exec .step s = .next ((motorControl m s).gotoCode .pollD) :=
    h.exec_step.trans (onMotor_castSucc (fun m t => (motorControl m t).gotoCode .pollD) h.idx)
  exact ⟨_, dir, mag, (Visits.one h.seq hstep).trans (.one hpoll.seq hpoll.exec_step), hpoll.idx ▸ hpoll.poll _⟩

/-- The drain of DRAIN_B ends at once with nothing received (40_scheduler.md R173, 41_framer.md R217). -/
theorem QuietAt.drain {k : Fin 3} {tr : List Event} {s : State} (h : QuietAt ⟨.drainB, k⟩ tr s) :
    ∃ t, Visits s [⟨.drainB, k⟩, ⟨.drain, k⟩] t ∧ QuietAt ⟨.enc, 0⟩ tr t := by
  let u : State := { s with rxFlag := false, drainFrames := 0, drainRet := ⟨.enc, 0⟩, seq := { s.seq with code := .drain } }
  have hu : QuietAt ⟨.drain, k⟩ tr u :=
    ⟨congrArg (SeqPos.mk .drain) h.idx, h.trace, h.rxEnabled, rfl, h.rxFifo, h.adcReady, h.tickPending⟩
  have henter : exec .step s = .next u := by
    rw [h.exec_step, microOp, execSeqDrainB, enterDrain_eq, if_pos h.rxEnabled]
  have hend : exec .step u = .next (u.goto ⟨.enc, 0⟩) := hu.exec_step.trans (drainStep_end (.inl hu.rxFifo))
  exact ⟨_, (Visits.one h.seq henter).trans (.one hu.seq hend), hu.goto _⟩

/-- IDLE takes the request and ADC_START starts the conversion (40_scheduler.md R171, R172). -/
theorem visits_tickStart {s : State} (hidle : s.seq.code = .idle) (htick : s.tickPending = true)
    (hen : s.rxEnabled = true) (hflag : s.rxFlag = false) (hfifo : s.ports.rxFifo = []) :
    ∃ t, Visits s [s.seq, ⟨.adcStart, s.seq.idx⟩] t ∧ QuietAt ⟨.drainB, s.seq.idx⟩ (s.trace ++ [.adcStart]) t := by
  have henter : exec .step s = .next (enterTick s) :=
    (exec_step_of_code hidle).trans (congrArg Host.Outcome.next (if_pos htick))
  have hstart : exec .step (enterTick s) =
      .next ((((enterTick s).putAdcReady false).emit .adcStart).gotoCode .drainB) := rfl
  exact ⟨_, (Visits.one rfl henter).trans (.one rfl hstart), rfl, rfl, hen, hflag, hfifo, rfl, rfl⟩

/-- Settles O58: the tick is the start, the empty drain, the three sensors, the override and the two motors, each a part of
its own. -/
theorem orderOfAnEmptyTick : Obligations.OrderOfAnEmptyTick := by
  intro s hidle htick hen hflag hfifo
  obtain ⟨s1, v1, q1⟩ := visits_tickStart hidle htick hen hflag hfifo
  obtain ⟨s2, v2, q2⟩ := q1.drain
  obtain ⟨s3, v3, q3⟩ := q2.sensor
  obtain ⟨s4, v4, q4⟩ := QuietAt.sensor (k := 1) q3
  obtain ⟨s5, v5, q5⟩ := QuietAt.sensor (k := 2) q4
  obtain ⟨s6, v6, q6⟩ := QuietAt.override (k := 0) q5
  obtain ⟨s7, d0, m0, v7, q7⟩ := QuietAt.motor (m := 0) q6
  obtain ⟨t, d1, m1, v8, q8⟩ := QuietAt.motor (m := 1) q7
  have hvisits := v1.trans (v2.trans (v3.trans (v4.trans (v5.trans (v6.trans (v7.trans v8))))))
  refine ⟨hvisits.visited_eq.trans (by rw [q8.seq]; rfl), t, d0, d1, m0, m1, hvisits.execTimes_eq, ?_, q8.adcReady,
    q8.tickPending, ?_⟩
  · simp [q8.trace]
  · exact (atHold_iff t).2 (.inr (.inl ⟨congrArg SeqPos.code q8.seq, q8.adcReady, by simp [q8.rxFlag]⟩))

end Sys2Proof.Machine

/-! Settling the statements of the family 41_framer.md: the byte step of each framer state through the DRAIN step (R201 to
R211), the end of a drain (R216, R217), the FRAMER rows, and a whole frame at the head of the FIFO (R212). -/

namespace Sys2Proof.Machine

open Sys2Proof

/-! ### One drain step -/

/-- Settles O28: the drain ends with no byte left as at the frame limit. -/
theorem drainEndsAtItsContinuation : Obligations.DrainEndsAtItsContinuation := fun _ => drainStep_end

/-- The state with other received bytes and other framer registers: all a drain changes inside a frame. -/
def State.taking (s : State) (bytes : List Byte) (f : FramerRegs) : State :=
  { s with ports := { s.ports with rxFifo := bytes }, framer := f }

/-- SEQ.DRAIN with a byte to take, in a known framer state (41_framer.md R200, R216). -/
theorem exec_seqDrain_byte {s : State} {f : FramerCode} {b : Byte} {rest : List Byte} (hfifo : s.ports.rxFifo = b :: rest)
    (hl : s.drainFrames.toNat < s.cfg.framesPerDrain) (hf : s.framer.fstate = f) :
    exec .seqDrain s = framerByteIn f b (s.taking rest s.framer) :=
  hf ▸ drainStep_byte hfifo hl

/-- Settles O29: the marker, the query and the moved window are the three branches of WaitStart. -/
theorem waitStartFindsMarkerOrQuery : Obligations.WaitStartFindsMarkerOrQuery := by
  intro s b rest hfifo hl hf win t
  refine (exec_seqDrain_byte hfifo hl hf).trans (congrArg Host.Outcome.next ?_)
  by_cases hmark : win.a1 = s.cfg.startMark ∧ win.a2 = s.cfg.startMark
  · rw [if_pos hmark]
    exact if_pos hmark
  · rw [if_neg hmark]
    exact if_neg hmark

/-- Settles O30: the address test of WaitId as a disjunction, and the three branches of WaitLength. -/
theorem addressAndLengthBytes : Obligations.AddressAndLengthBytes := by
  intro s b rest hfifo hl t
  refine ⟨fun hf => ?_, fun hf => ?_⟩
  · have haddr : (b == s.mem.nodeAddr || b == s.cfg.broadcastAddr)
        = decide (b = s.mem.nodeAddr ∨ b = s.cfg.broadcastAddr) := by
      rw [Bool.decide_or, beq_eq_decide, beq_eq_decide]
    rw [exec_seqDrain_byte hfifo hl hf, ← haddr]
    rfl
  · exact exec_seqDrain_byte hfifo hl hf

/-- The frame buffer with the next payload byte, and the index moved on (41_framer.md R206). -/
def FramerRegs.store (f : FramerRegs) (b : Byte) : FramerRegs :=
  { f with fbuf := memWrite f.fbuf f.fidx.toNat b, fidx := f.fidx + 1 }

/-- A payload byte with others to come (41_framer.md R206). -/
theorem receiveByte_more {s : State} (hidx : s.framer.fidx.toNat < maxFrame) (hmore : s.framer.fidx + 1 ≠ s.framer.flen)
    (b : Byte) : receiveByte b s = .next { s with framer := s.framer.store b } :=
  (if_pos hidx).trans (congrArg Host.Outcome.next (if_neg hmore))

/-- The last payload byte (41_framer.md R206, R207). -/
theorem receiveByte_last {s : State} (hidx : s.framer.fidx.toNat < maxFrame) (hlast : s.framer.fidx + 1 = s.framer.flen)
    (b : Byte) : receiveByte b s = .next (frameComplete { s with framer := s.framer.store b }) :=
  (if_pos hidx).trans (congrArg Host.Outcome.next (if_pos hlast))

/-- Settles O31: the byte is a write to the frame buffer, and the commit a copy of it. -/
theorem receiveStoresAndCommits : Obligations.ReceiveStoresAndCommits := by
  intro s b rest hfifo hl hf hidx hfbuf hrxc
  have hstored (a : Nat) : memRead (memWrite s.framer.fbuf s.framer.fidx.toNat b) a
      = if a = s.framer.fidx.toNat then b else memRead s.framer.fbuf a := by
    rw [memRead_memWrite hfbuf]
    simp only [eq_comm]
  have hexec := exec_seqDrain_byte hfifo hl hf
  by_cases hlast : s.framer.fidx + 1 = s.framer.flen
  · have hcommit := hexec.trans (receiveByte_last (s := s.taking rest s.framer) hidx hlast b)
    exact ⟨_, hcommit, hstored, fun h => absurd hlast h, fun _ => ⟨memRead_memCopy hrxc _ _, rfl⟩⟩
  · have hstore := hexec.trans (receiveByte_more (s := s.taking rest s.framer) hidx hlast b)
    exact ⟨_, hstore, hstored, fun _ => rfl, fun h => absurd h hlast⟩

/-- A skipped byte with others to come (41_framer.md R210). -/
theorem unloadByte_more {s : State} (h : s.framer.unloadCnt.toNat ≠ 1) :
    unloadByte s = { s with framer := { s.framer with unloadCnt := s.framer.unloadCnt - 1 } } :=
  if_neg (show s.framer.unloadCnt - 1 ≠ 0 by bv_omega)

/-- The last skipped byte (41_framer.md R210, R211). -/
theorem unloadByte_last {s : State} (h : s.framer.unloadCnt.toNat = 1) :
    unloadByte s = unloadComplete { s with framer := { s.framer with unloadCnt := 0 } } := by
  have hzero : s.framer.unloadCnt - 1 = 0 := by bv_omega
  exact (if_pos hzero).trans (by rw [hzero])

/-- Settles O32: the byte is the last one at count 1, and at no other count. -/
theorem unloadCountsDownAndPulses : Obligations.UnloadCountsDownAndPulses := by
  intro s b rest hfifo hl hf _
  refine (exec_seqDrain_byte hfifo hl hf).trans (congrArg Host.Outcome.next ?_)
  by_cases hone : s.framer.unloadCnt.toNat = 1
  · rw [if_pos hone]
    exact unloadByte_last (s := s.taking rest s.framer) hone
  · rw [if_neg hone]
    exact unloadByte_more (s := s.taking rest s.framer) hone

/-! ### The FRAMER rows -/

/-- A FRAMER row is the framer's byte step on the oldest received byte (30_encoding.md R145). -/
theorem exec_framerInstr (f : FramerCode) (s : State) : exec f.instr s = framerInstr f s := by
  cases f <;> rfl

/-- Settles O33: the row and the drain step run the same byte step on the same state. -/
theorem framerRowsAreTheDrainStep : Obligations.FramerRowsAreTheDrainStep := by
  intro f s
  rw [exec_framerInstr]
  refine ⟨fun hnil => by rw [framerInstr, fifoPop_nil hnil], fun hf hne hidx => ?_⟩
  obtain ⟨b, rest, hfifo⟩ := List.exists_cons_of_ne_nil hne
  obtain ⟨t, ht⟩ := framerByteIn_next f b (s.taking rest s.framer) hidx
  exact ⟨t, (framerInstr_byte hfifo f).trans ht, fun hl => (exec_seqDrain_byte hfifo hl hf).trans ht⟩

/-! ### Runs of one instruction -/

/-- A first instruction that gives a next state is one of the run. -/
theorem execTimes_succ {i : Instr} {s t : State} (h : exec i s = .next t) (n : Nat) :
    execTimes i (n + 1) s = execTimes i n t := by
  rw [execTimes, h]

/-- A run goes on from where its first part ends. -/
theorem execTimes_add {i : Instr} {m : Nat} {s t : State} (h : execTimes i m s = .next t) (n : Nat) :
    execTimes i (m + n) s = execTimes i n t := by
  induction m generalizing s with
  | zero =>
    cases h
    rw [Nat.zero_add]
  | succ m ih =>
    cases hstep : exec i s with
    | next u =>
      rw [execTimes_succ hstep] at h
      rw [Nat.add_right_comm, execTimes_succ hstep, ih h]
    | fault r | refused r => simp only [execTimes, hstep, reduceCtorEq] at h

/-! ### A drain at work -/

/-- A drain below the frame limit (41_framer.md R216). -/
structure State.InDrain (s : State) : Prop where
  code  : s.seq.code = .drain
  limit : s.drainFrames.toNat < s.cfg.framesPerDrain

theorem State.InDrain.taking {s : State} (h : s.InDrain) (bytes : List Byte) (f : FramerRegs) :
    (s.taking bytes f).InDrain :=
  ⟨h.code, h.limit⟩

/-- STEP in a drain is the drain step (47_host_interface.md R372). -/
theorem State.InDrain.exec_step {s : State} (h : s.InDrain) : exec .step s = exec .seqDrain s :=
  exec_step_of_code h.code

/-- STEP in a drain, one byte (41_framer.md R200). -/
theorem State.InDrain.exec_step_taking {s : State} (h : s.InDrain) {c : FramerCode} {f : FramerRegs} (hf : f.fstate = c)
    (b : Byte) (rest : List Byte) : exec .step (s.taking (b :: rest) f) = framerByteIn c b (s.taking rest f) :=
  (h.taking _ _).exec_step.trans (exec_seqDrain_byte rfl h.limit hf)

/-! ### The header -/

/-- Two markers, with no half marker and no query in the window (41_framer.md R201). -/
theorem State.InDrain.execTimes_marker {s : State} (h : s.InDrain) {bytes : List Byte}
    (hstart : s.framer.fstate = .waitStart) (hhalf : s.framer.win.a2 ≠ s.cfg.startMark)
    (hquery : (⟨s.framer.win.a1, s.framer.win.a2, s.cfg.startMark⟩ : Three Byte) ≠ s.cfg.querySeq)
    (hfifo : s.ports.rxFifo = s.cfg.startMark :: s.cfg.startMark :: bytes) :
    execTimes .step 2 s = .next (s.taking bytes { s.framer with win := ⟨0, 0, 0⟩, fstate := .waitId }) := by
  have hfirst : exec .step s = .next (s.taking (s.cfg.startMark :: bytes)
      { s.framer with win := ⟨s.framer.win.a1, s.framer.win.a2, s.cfg.startMark⟩ }) := by
    rw [h.exec_step, waitStartFindsMarkerOrQuery s _ _ hfifo h.limit hstart, if_neg fun hm => hhalf hm.1, if_neg hquery]
    rfl
  have hsecond := waitStartFindsMarkerOrQuery (s.taking (s.cfg.startMark :: bytes)
    { s.framer with win := ⟨s.framer.win.a1, s.framer.win.a2, s.cfg.startMark⟩ }) _ _ rfl h.limit hstart
  rw [execTimes_succ hfirst]
  exact execTimes_succ ((h.taking _ _).exec_step.trans (hsecond.trans (congrArg _ (if_pos ⟨rfl, rfl⟩)))) 0

/-- The address byte (41_framer.md R203). -/
theorem State.InDrain.exec_step_address {s : State} (h : s.InDrain) {f : FramerRegs} (hf : f.fstate = .waitId) (addr : Byte)
    (bytes : List Byte) :
    exec .step (s.taking (addr :: bytes) f) = .next (s.taking bytes
      { f with forMe := decide (addr = s.mem.nodeAddr ∨ addr = s.cfg.broadcastAddr), fstate := .waitLength }) := by
  obtain ⟨hid, -⟩ := addressAndLengthBytes (s.taking (addr :: bytes) f) addr bytes rfl h.limit
  exact (h.taking _ _).exec_step.trans (hid hf)

/-- A valid length byte (41_framer.md R205). -/
theorem State.InDrain.exec_step_length {s : State} (h : s.InDrain) {f : FramerRegs} (hf : f.fstate = .waitLength)
    {len : Byte} (hlow : 2 ≤ len.toNat) (hhigh : len.toNat ≤ maxFrame) (bytes : List Byte) :
    exec .step (s.taking (len :: bytes) f) = .next (s.taking bytes
      (if f.forMe = true then { f with flen := len, fidx := 0, fstate := .receive }
       else { f with flen := len, fidx := 0, unloadCnt := len, fstate := .unload })) := by
  have hvalid : ¬(len.toNat ≤ 1 ∨ 128 < len.toNat) := by
    simp only [maxFrame] at hhigh
    omega
  obtain ⟨-, hlen⟩ := addressAndLengthBytes (s.taking (len :: bytes) f) len bytes rfl h.limit
  rw [(h.taking _ _).exec_step, hlen hf, if_neg hvalid]
  by_cases hmine : f.forMe = true
  · rw [if_pos hmine]
    exact congrArg _ (if_pos hmine)
  · rw [if_neg hmine]
    exact congrArg _ (if_neg hmine)

/-- The framer registers after the header of a frame: marker, address and a valid length (41_framer.md R201, R203, R205). -/
def FramerRegs.opened (f : FramerRegs) (mine : Bool) (len : Byte) : FramerRegs :=
  if mine = true then
    { f with fstate := .receive, win := ⟨0, 0, 0⟩, forMe := mine, flen := len, fidx := 0 }
  else
    { f with fstate := .unload, win := ⟨0, 0, 0⟩, forMe := mine, flen := len, fidx := 0, unloadCnt := len }

/-- The four bytes of a header with a valid length take four STEPs (41_framer.md R212). -/
theorem State.InDrain.execTimes_header {s : State} (h : s.InDrain) {addr len : Byte} {body : List Byte}
    (hstart : s.framer.fstate = .waitStart) (hhalf : s.framer.win.a2 ≠ s.cfg.startMark)
    (hquery : (⟨s.framer.win.a1, s.framer.win.a2, s.cfg.startMark⟩ : Three Byte) ≠ s.cfg.querySeq)
    (hlow : 2 ≤ len.toNat) (hhigh : len.toNat ≤ maxFrame)
    (hfifo : s.ports.rxFifo = s.cfg.startMark :: s.cfg.startMark :: addr :: len :: body) :
    execTimes .step 4 s = .next
      (s.taking body (s.framer.opened (decide (addr = s.mem.nodeAddr ∨ addr = s.cfg.broadcastAddr)) len)) := by
  rw [execTimes_add (m := 2) (h.execTimes_marker hstart hhalf hquery hfifo) 2,
    execTimes_succ (h.exec_step_address rfl addr _)]
  exact execTimes_succ (h.exec_step_length rfl hlow hhigh body) 0

/-! ### The payload of a frame for this node -/

/-- The bytes written one after the other from an address on (41_framer.md R206). -/
def memStore : Memory → Nat → List Byte → Memory
  | m, _, [] => m
  | m, a, b :: bytes => memStore (memWrite m a b) (a + 1) bytes

/-- Outside the addresses written a buffer reads as before. -/
theorem memRead_memStore_outside {m : Memory} (hw : memWf m = true) {a c : Nat} {bytes : List Byte}
    (h : c < a ∨ a + bytes.length ≤ c) : memRead (memStore m a bytes) c = memRead m c := by
  induction bytes generalizing m a with
  | nil => rfl
  | cons b bytes ih =>
    rw [List.length_cons] at h
    rw [memStore, ih (memWf_memWrite hw a b) (by omega), memRead_memWrite hw, if_neg (by omega)]

/-- The addresses written read as the bytes. -/
theorem memRead_memStore_inside {m : Memory} (hw : memWf m = true) (a : Nat) {bytes : List Byte} {i : Nat}
    (h : i < bytes.length) : memRead (memStore m a bytes) (a + i) = bytes[i] := by
  induction bytes generalizing m a i with
  | nil => exact absurd h (Nat.not_lt_zero i)
  | cons b bytes ih =>
    have hw' := memWf_memWrite hw a b
    cases i with
    | zero =>
      have hlater : memRead (memStore (memWrite m a b) (a + 1) bytes) a = memRead (memWrite m a b) a :=
        memRead_memStore_outside hw' (.inl (Nat.lt_succ_self a))
      exact hlater.trans ((memRead_memWrite hw a a b).trans (if_pos rfl))
    | succ i =>
      have hnext : a + (i + 1) = a + 1 + i := by omega
      rw [hnext]
      exact ih hw' (a + 1) (Nat.lt_of_succ_lt_succ h)

/-- The bytes still to come in Receive, one STEP each: stored in order, and the last one commits the frame
(41_framer.md R206, R207). -/
theorem State.InDrain.execTimes_receive {s : State} (h : s.InDrain) (rest : List Byte) {f : FramerRegs} {b : Byte}
    {bytes : List Byte} (hf : f.fstate = .receive) (hlen : f.fidx.toNat + (bytes.length + 1) = f.flen.toNat)
    (hmax : f.flen.toNat ≤ maxFrame) :
    execTimes .step (bytes.length + 1) (s.taking (b :: (bytes ++ rest)) f) = .next
      (frameComplete (s.taking rest { f with fbuf := memStore f.fbuf f.fidx.toNat (b :: bytes), fidx := f.flen })) := by
  have hidx : f.fidx.toNat < maxFrame := by omega
  induction bytes generalizing b f with
  | nil =>
    rw [List.length_nil] at hlen
    have hlast : f.fidx + 1 = f.flen := by bv_omega
    have hstep := receiveByte_last (s := s.taking rest f) hidx hlast b
    have hstored : f.store b = { f with fbuf := memStore f.fbuf f.fidx.toNat [b], fidx := f.flen } := by
      rw [FramerRegs.store, hlast]
      rfl
    rw [← hstored]
    exact execTimes_succ ((h.exec_step_taking hf b rest).trans hstep) 0
  | cons c bytes ih =>
    rw [List.length_cons] at hlen
    have hnext : (f.fidx + 1).toNat = f.fidx.toNat + 1 := by bv_omega
    have hmore : f.fidx + 1 ≠ f.flen := fun heq => by
      rw [heq] at hnext
      omega
    have hleft : (f.store b).fidx.toNat + (bytes.length + 1) = f.flen.toNat := by
      rw [FramerRegs.store, hnext]
      omega
    have hstep := receiveByte_more (s := s.taking (c :: (bytes ++ rest)) f) hidx hmore b
    have hrun := ih (f := f.store b) (b := c) hf hleft hmax (by omega)
    rw [FramerRegs.store, hnext] at hrun
    exact (execTimes_succ ((h.exec_step_taking hf b _).trans hstep) _).trans hrun

/-- Settles O59: the header opens a frame of this node, the payload is stored from index 0 on and committed. -/
theorem ownFrameIsDispatched : Obligations.OwnFrameIsDispatched := by
  intro s addr len payload rest mark hcode hstart hlimit hhalf hquery haddr hlow hhigh hlen hfbuf hrxc hfifo
  have h : s.InDrain := ⟨hcode, hlimit⟩
  have hheader := h.execTimes_header hstart hhalf hquery hlow hhigh hfifo
  rw [decide_eq_true haddr] at hheader
  have hpayload : execTimes .step len.toNat (s.taking (payload ++ rest) (s.framer.opened true len)) = .next
      (frameComplete (s.taking rest
        { s.framer.opened true len with fbuf := memStore s.framer.fbuf 0 payload, fidx := len })) := by
    rw [← hlen] at hlow ⊢
    cases payload with
    | nil => simp at hlow
    | cons b bytes =>
      exact h.execTimes_receive rest (f := s.framer.opened true len) rfl ((Nat.zero_add _).trans hlen) hhigh
  have hstored (i : Nat) (hi : i < payload.length) : memRead (memStore s.framer.fbuf 0 payload) i = payload[i] := by
    simpa using memRead_memStore_inside hfbuf 0 hi
  refine ⟨_, (execTimes_add hheader _).trans hpayload, fun i hi => ?_, fun a ha => ?_, hstored, fun a ha => ?_, rfl⟩
  · exact (memRead_memCopy hrxc _ _ _).trans ((if_pos (hlen ▸ hi)).trans (hstored i hi))
  · exact (memRead_memCopy hrxc _ _ _).trans (if_neg (Nat.not_lt.2 ha))
  · exact memRead_memStore_outside hfbuf (.inr (by omega))

/-! ### The payload of a frame for another node -/

/-- The bytes still to skip in Unload, one STEP each, the last one with the pulse (41_framer.md R210, R211). -/
theorem State.InDrain.execTimes_unload {s : State} (h : s.InDrain) (rest : List Byte) {f : FramerRegs} {b : Byte}
    {bytes : List Byte} (hf : f.fstate = .unload) (hcnt : bytes.length + 1 = f.unloadCnt.toNat) :
    execTimes .step (bytes.length + 1) (s.taking (b :: (bytes ++ rest)) f) = .next
      (unloadComplete (s.taking rest { f with unloadCnt := 0 })) := by
  induction bytes generalizing b f with
  | nil =>
    have hstep := unloadByte_last (s := s.taking rest f) hcnt.symm
    exact execTimes_succ ((h.exec_step_taking hf b rest).trans (congrArg Host.Outcome.next hstep)) 0
  | cons c bytes ih =>
    rw [List.length_cons] at hcnt
    have hmore : f.unloadCnt.toNat ≠ 1 := by omega
    have hleft : bytes.length + 1 = (f.unloadCnt - 1).toNat := by bv_omega
    have hstep := unloadByte_more (s := s.taking (c :: (bytes ++ rest)) f) hmore
    have hrun := ih (f := { f with unloadCnt := f.unloadCnt - 1 }) (b := c) hf hleft
    exact (execTimes_succ ((h.exec_step_taking hf b _).trans (congrArg Host.Outcome.next hstep)) _).trans hrun

/-- Settles O60: the header opens a frame of another node, and its length is the count to skip. -/
theorem foreignFrameIsSkipped : Obligations.ForeignFrameIsSkipped := by
  intro s addr len payload rest mark hcode hstart hlimit hhalf hquery hnode hbroadcast hlow hhigh hlen hfifo
  have h : s.InDrain := ⟨hcode, hlimit⟩
  have hheader := h.execTimes_header hstart hhalf hquery hlow hhigh hfifo
  rw [decide_eq_false (not_or.2 ⟨hnode, hbroadcast⟩)] at hheader
  have hskipped : execTimes .step len.toNat (s.taking (payload ++ rest) (s.framer.opened false len)) = .next
      (unloadComplete (s.taking rest { s.framer.opened false len with unloadCnt := 0 })) := by
    rw [← hlen] at hlow ⊢
    cases payload with
    | nil => simp at hlow
    | cons b bytes => exact h.execTimes_unload rest (f := s.framer.opened false len) rfl hlen
  exact ⟨_, (execTimes_add hheader _).trans hskipped, rfl⟩

end Sys2Proof.Machine

/-! Settling the statements of the family 42_numeric_utils.md: the checksum laws (R230, R231), the validity check under every
table and under the default one (R232, R233), and the filter laws (R235). -/

namespace Sys2Proof

/-! ### The checksum -/

@[simp] theorem checksum_singleton (b : Byte) : checksum [b] = b := BitVec.zero_xor

/-- The fold over `b` starts at the checksum of `a` (42_numeric_utils.md R231). -/
theorem checksum_append (a b : List Byte) : checksum (a ++ b) = checksum a ^^^ checksum b :=
  List.foldl_append.trans (checksum_foldl (checksum a) b)

/-- Settles O53: a sequence's checksum is XORed with itself where the checksum follows the sequence. -/
theorem checksumLaws : Obligations.ChecksumLaws := by
  refine ⟨checksum_nil, checksum_singleton, checksum_append, fun a => ?_⟩
  rw [checksum_append, checksum_singleton]
  exact BitVec.xor_self

/-! ### The parity of the low bits of a word -/

/-- The XOR of the lowest n bits of a word: whether the number of 1 bits among them is odd. -/
def oddOnes {k : Nat} (w : BitVec k) : Nat → Bool
  | 0 => false
  | n + 1 => oddOnes w n ^^ w.getLsbD n

@[simp] theorem oddOnes_zero {k : Nat} (w : BitVec k) : oddOnes w 0 = false := rfl

theorem oddOnes_succ {k : Nat} (w : BitVec k) (n : Nat) : oddOnes w (n + 1) = (oddOnes w n ^^ w.getLsbD n) := rfl

/-- The link to the count of 1 bits, in which 42_numeric_utils.md R232 states evenness. -/
theorem oddOnes_eq_countP {k : Nat} (w : BitVec k) (n : Nat) :
    oddOnes w n = decide (((List.range n).countP fun i => w.getLsbD i) % 2 = 1) := by
  induction n with
  | zero => rfl
  | succ n ih =>
    rw [oddOnes_succ, ih, List.range_succ, List.countP_append, List.countP_singleton]
    cases w.getLsbD n with
    | false => simp
    | true =>
      rw [Bool.xor_true, if_pos rfl, ← decide_not, decide_eq_decide]
      omega

theorem oddOnes_xor {k : Nat} (v w : BitVec k) (n : Nat) :
    oddOnes (v ^^^ w) n = (oddOnes v n ^^ oddOnes w n) := by
  induction n with
  | zero => rfl
  | succ n ih =>
    simp only [oddOnes_succ, ih, BitVec.getLsbD_xor, Bool.xor_assoc, Bool.xor_left_comm]

/-- The parity of a part of a word, cut where the part starts. -/
theorem oddOnes_add {k : Nat} (w : BitVec k) (m : Nat) {n len : Nat} (h : n ≤ len) :
    oddOnes w (m + n) = (oddOnes w m ^^ oddOnes (w.extractLsb' m len) n) := by
  induction n with
  | zero => exact (Bool.xor_false _).symm
  | succ n ih =>
    have hbit : (w.extractLsb' m len).getLsbD n = w.getLsbD (m + n) := by
      rw [BitVec.getLsbD_extractLsb', decide_eq_true (show n < len from h), Bool.true_and]
    rw [← Nat.add_assoc, oddOnes_succ, oddOnes_succ, ih (Nat.le_of_succ_le h), hbit, Bool.xor_assoc]

/-- The only 1 bit of a power of two is among the lowest n bits or above them. -/
theorem oddOnes_twoPow {k i : Nat} (hi : i < k) (n : Nat) : oddOnes (BitVec.twoPow k i) n = decide (i < n) := by
  induction n with
  | zero => rfl
  | succ n ih =>
    rw [oddOnes_succ, ih, BitVec.getLsbD_twoPow, decide_eq_true hi, Bool.true_and]
    rcases Nat.lt_trichotomy i n with hlt | rfl | hgt
    · simp [hlt, hlt.ne, Nat.lt_succ_of_lt hlt]
    · simp
    · simp [hgt.not_gt, hgt.ne', Nat.not_lt.2 (Nat.succ_le_of_lt hgt)]

/-! ### The validity check -/

/-- Bits `i` to `i + len - 1` of a word, as the shift and the truncation of 42_numeric_utils.md R232. -/
theorem extractLsb'_eq_setWidth_ushiftRight {k : Nat} (w : BitVec k) (i len : Nat) :
    w.extractLsb' i len = (w >>> i).setWidth len := by
  apply BitVec.eq_of_getLsbD_eq
  intro j hj
  simp [hj]

/-- The XOR of the four bytes of a word, whose halves the hash XORs (42_numeric_utils.md R232). -/
def bytesXor (w : W32) : Byte :=
  w.extractLsb' 0 8 ^^^ w.extractLsb' 8 8 ^^^ w.extractLsb' 16 8 ^^^ w.extractLsb' 24 8

theorem encHash_eq (w : W32) : encHash w = (bytesXor w).extractLsb' 0 4 ^^^ (bytesXor w).extractLsb' 4 4 := rfl

theorem oddOnes_bytesXor (w : W32) : oddOnes (bytesXor w) 8 = oddOnes w 32 := by
  rw [bytesXor, oddOnes_xor, oddOnes_xor, oddOnes_xor, oddOnes_add w 24 (n := 8) le_rfl,
    oddOnes_add w 16 (n := 8) le_rfl, oddOnes_add w 8 (n := 8) le_rfl, oddOnes_add w 0 (n := 8) le_rfl, oddOnes_zero,
    Bool.false_xor]

/-- The hash keeps the parity of the word (42_numeric_utils.md R232). -/
theorem oddOnes_encHash (w : W32) : oddOnes (encHash w) 4 = oddOnes w 32 := by
  rw [← oddOnes_bytesXor, encHash_eq, oddOnes_xor, oddOnes_add (bytesXor w) 4 (n := 4) le_rfl,
    oddOnes_add (bytesXor w) 0 (n := 4) le_rfl, oddOnes_zero, Bool.false_xor]

/-- Bit h of the default table is 1 exactly when h has an even number of 1 bits (42_numeric_utils.md R232). -/
theorem default_table_getLsbD (h : BitVec 4) : (0x9669#16).getLsbD h.toNat = !oddOnes h 4 := by
  revert h
  decide

/-- Under the default table the valid words are those of even parity (42_numeric_utils.md R232). -/
theorem encValid_default (w : W32) : encValid 0x9669 w = !oddOnes w 32 := by
  rw [← oddOnes_encHash]
  exact default_table_getLsbD (encHash w)

theorem encValid_default_iff_even (w : W32) :
    encValid 0x9669 w = true ↔ ((List.range 32).countP fun i => w.getLsbD i) % 2 = 0 := by
  rw [encValid_default, oddOnes_eq_countP, Bool.not_eq_true', decide_eq_false_iff_not]
  omega

/-- Flipping one bit changes the validity of a word, valid or not (42_numeric_utils.md R233). -/
theorem encValid_default_flip (w : W32) {i : Nat} (hi : i < 32) :
    encValid 0x9669 (w ^^^ BitVec.twoPow 32 i) = !encValid 0x9669 w := by
  rw [encValid_default, encValid_default, oddOnes_xor, oddOnes_twoPow hi, decide_eq_true hi, Bool.xor_true]

/-- Settles O54: the default table reads the parity, which every flipped bit changes. -/
theorem defaultTableAcceptsEvenParity : Obligations.DefaultTableAcceptsEvenParity := by
  intro w
  refine ⟨fun accept => ?_, encValid_default_iff_even w, fun hvalid i hi => ?_, fun hvalid i j hi hj _ => ?_⟩
  · simp only [encValid, encHash_eq, bytesXor, extractLsb'_eq_setWidth_ushiftRight, BitVec.ushiftRight_zero]
  · rw [encValid_default_flip w hi, hvalid]
    rfl
  · rw [encValid_default_flip _ hj, encValid_default_flip w hi, Bool.not_not, hvalid]

/-! ### The filter -/

/-- The filter moves its state by the floor of the weighted distance to the input (42_numeric_utils.md R234, R235). -/
theorem filterValue_eq_add (alpha : Int) (shift : Nat) (old x : Int) :
    filterValue alpha shift old x = old + (x - old) * alpha / 2 ^ shift := by
  have hsum : old * (2 ^ shift - alpha) + x * alpha = (x - old) * alpha + old * 2 ^ shift := by ring
  change (old * (2 ^ shift - alpha) + x * alpha) / 2 ^ shift = _
  rw [hsum, Int.add_mul_ediv_right _ _ (by positivity), add_comm]

section
variable {alpha old x : Int} {shift : Nat}

theorem filterValue_rising (h0 : 0 ≤ alpha) (h1 : alpha ≤ 2 ^ shift) (hx : old ≤ x) :
    old ≤ filterValue alpha shift old x ∧ filterValue alpha shift old x ≤ x := by
  have hd : 0 ≤ x - old := Int.sub_nonneg_of_le hx
  have hup : 0 ≤ (x - old) * alpha / 2 ^ shift := Int.ediv_nonneg (mul_nonneg hd h0) (by positivity)
  have hstop : (x - old) * alpha / 2 ^ shift ≤ x - old :=
    Int.ediv_le_of_le_mul (by positivity) (mul_le_mul_of_nonneg_left h1 hd)
  rw [filterValue_eq_add]
  omega

theorem filterValue_falling (h0 : 0 ≤ alpha) (h1 : alpha ≤ 2 ^ shift) (hx : x ≤ old) :
    x ≤ filterValue alpha shift old x ∧ filterValue alpha shift old x ≤ old := by
  have hd : x - old ≤ 0 := Int.sub_nonpos_of_le hx
  have hdown : (x - old) * alpha / 2 ^ shift ≤ 0 :=
    Int.ediv_le_of_le_mul (by positivity) (by simpa using mul_nonpos_of_nonpos_of_nonneg hd h0)
  have hstop : x - old ≤ (x - old) * alpha / 2 ^ shift :=
    (Int.le_ediv_iff_mul_le (by positivity)).2 (mul_le_mul_of_nonpos_left h1 hd)
  rw [filterValue_eq_add]
  omega

/-- The floor of a negative quotient is at most -1, so a falling input always moves the state. -/
theorem filterValue_falling_strict (ha : 0 < alpha) (hx : x < old) : filterValue alpha shift old x < old := by
  have hdown : (x - old) * alpha / 2 ^ shift < 0 :=
    Int.ediv_neg_of_neg_of_pos (mul_neg_of_neg_of_pos (Int.sub_neg_of_lt hx) ha) (by positivity)
  rw [filterValue_eq_add]
  omega

/-- The floor of a quotient below 1 is 0, so the filter settles below a near rising input. -/
theorem filterValue_rising_near (h0 : 0 ≤ alpha) (hx : old < x) (hnear : (x - old) * alpha < 2 ^ shift) :
    filterValue alpha shift old x = old := by
  have hd : 0 ≤ (x - old) * alpha := mul_nonneg (Int.sub_nonneg_of_le hx.le) h0
  rw [filterValue_eq_add, Int.ediv_eq_zero_of_lt hd hnear, add_zero]

@[simp] theorem filterValue_self : filterValue alpha shift x x = x := by
  simp [filterValue_eq_add]

end

/-- Settles O55: the bounds by the direction of the input, then the three laws of the floor. -/
theorem filterStaysBetween : Obligations.FilterStaysBetween := by
  intro alpha old x shift h0 h1
  refine ⟨?_, filterValue_self, filterValue_falling_strict, filterValue_rising_near h0⟩
  rcases le_total old x with hx | hx
  · rw [min_eq_left hx, max_eq_right hx]
    exact filterValue_rising h0 h1 hx
  · rw [min_eq_right hx, max_eq_left hx]
    exact filterValue_falling h0 h1 hx

end Sys2Proof

/-! Settling the statements of the family 43_encoder.md: a run of samples in the noise band (R254, R257) and what an encoder
step writes and reads (R256). -/

namespace Sys2Proof

theorem Three.get_set_self {α : Type} (t : Three α) (k : Fin 3) (v : α) : (t.set k v).get k = v :=
  (t.get_set k k v).trans (if_pos rfl)

/-- What stood in two triples does not matter where both were set. -/
theorem Three.get_set_congr {α : Type} (t t' : Three α) (k : Fin 3) (v : α) : (t.set k v).get k = (t'.set k v).get k :=
  (t.get_set_self k v).trans (t'.get_set_self k v).symm

theorem Three.set_set {α : Type} (t : Three α) (k : Fin 3) (v w : α) : (t.set k v).set k w = t.set k w := by
  fin_cases k <;> rfl

theorem Three.get_zeros (k : Fin 3) : (⟨0, 0, 0⟩ : Three W16).get k = 0 := by
  fin_cases k <;> rfl

end Sys2Proof

namespace Sys2Proof.Machine

open Sys2Proof

theorem exec_seqEnc (s : State) : exec .seqEnc s = .next ((encoderUpdate s.seq.idx s).gotoCode .pollC) := rfl

/-! ### A run of samples in the noise band -/

/-- The raw angle of the sample of sensor `seq_idx` (43_encoder.md R252). -/
def State.sampleAngle (s : State) : W16 :=
  rawAngle s.cfg.encShift s.cfg.encBits (s.mem.encOff.get s.seq.idx) (s.ports.encWord.get s.seq.idx)

/-- The distance of that sample from the last accepted one (43_encoder.md R253). -/
def State.sampleDelta (s : State) : Int := s.sampleAngle.toInt - (s.enc.last.get s.seq.idx).toInt

/-- The sample of sensor `seq_idx` is valid and in the noise band: above a quarter of a turn, and at most three quarters, away
from a last-known value that no reset request is about to zero (43_encoder.md R254). -/
structure State.SampleIsNoise (s : State) : Prop where
  resetLast : s.enc.resetLast = false
  valid     : encValid s.cfg.encAccept (s.ports.encWord.get s.seq.idx) = true
  above     : 16384 < max s.sampleDelta (-s.sampleDelta)
  atMost    : max s.sampleDelta (-s.sampleDelta) ≤ 49152

/-- The noise counter of sensor k set to n: all a discarded sample does (43_encoder.md R254). -/
def State.countNoise (s : State) (k : Fin 3) (n : BitVec 4) : State :=
  { s with enc := { s.enc with noise := s.enc.noise.set k n } }

/-- The state at position `c` of a noise run that has discarded n samples of sensor `seq_idx`. -/
def State.discarding (s : State) (c : SeqCode) (n : Nat) : State :=
  (s.countNoise s.seq.idx (BitVec.ofNat 4 n)).gotoCode c

theorem State.discarding_zero {s : State} (h : s.enc.noise.get s.seq.idx = 0) : s.discarding s.seq.code 0 = s := by
  have hnoise : s.enc.noise.set s.seq.idx (BitVec.ofNat 4 0) = s.enc.noise := by
    rw [show BitVec.ofNat 4 0 = s.enc.noise.get s.seq.idx from h.symm, Three.set_get]
  rw [State.discarding, State.countNoise, hnoise]
  rfl

theorem State.discarding_noise_get (s : State) (c : SeqCode) (n : Nat) :
    (s.discarding c n).enc.noise.get s.seq.idx = BitVec.ofNat 4 n :=
  Three.get_set_self _ _ _

/-- The counter of a noise run is its length, which four bits hold (43_encoder.md R254). -/
theorem State.discarding_noise_toNat (s : State) (c : SeqCode) {n : Nat} (hn : n ≤ 9) :
    ((s.discarding c n).enc.noise.get s.seq.idx).toNat = n := by
  rw [s.discarding_noise_get]
  exact Nat.mod_eq_of_lt (by omega)

/-- One sample more is discarded where the last one was. -/
theorem State.discarding_succ (s : State) (c : SeqCode) (n : Nat) :
    ((s.discarding c n).countNoise s.seq.idx ((s.discarding c n).enc.noise.get s.seq.idx + 1)).gotoCode .pollC =
      s.discarding .pollC (n + 1) := by
  have hsucc : BitVec.ofNat 4 n + 1 = BitVec.ofNat 4 (n + 1) := (BitVec.ofNat_add n 1).symm
  rw [s.discarding_noise_get, hsucc]
  simp only [State.discarding, State.countNoise, State.gotoCode, Three.set_set]

/-- The run changes nothing its sample is made of. -/
theorem State.SampleIsNoise.discarding {s : State} (h : s.SampleIsNoise) (c : SeqCode) (n : Nat) :
    (s.discarding c n).SampleIsNoise :=
  ⟨h.resetLast, h.valid, h.above, h.atMost⟩

/-- A sample in the noise band is discarded and counted, or accepted at the limit with the turn counter unchanged
(43_encoder.md R254). -/
theorem State.SampleIsNoise.encoderUpdate_eq {s : State} (h : s.SampleIsNoise)
    (hn : (s.enc.noise.get s.seq.idx).toNat < noiseLimit) :
    encoderUpdate s.seq.idx s =
      if (s.enc.noise.get s.seq.idx).toNat + 1 < 10 then
        s.countNoise s.seq.idx (s.enc.noise.get s.seq.idx + 1)
      else acceptSample s.seq.idx s.sampleAngle (s.meas.turns.get s.seq.idx) s := by
  have hclear : clearLast s = s := if_neg (by simp [h.resetLast])
  have hsample : encoderUpdate s.seq.idx s = unwrapSample s.seq.idx s.sampleAngle s := by
    simp only [encoderUpdate, hclear]
    exact if_pos h.valid
  obtain ⟨hdown, hup⟩ := max_le_iff.1 h.atMost
  rw [hsample, unwrapSample_eq hn]
  calc _ = _ := if_neg (Int.not_lt.2 hdown)
    _ = _ := if_neg (Int.not_lt.2 (Int.neg_le_of_neg_le hup))
    _ = _ := if_congr (and_iff_right h.above) rfl rfl

/-- Below nine discarded samples the next one is discarded. -/
theorem State.SampleIsNoise.exec_discard {s : State} (h : s.SampleIsNoise) (c : SeqCode) {n : Nat} (hn : n < 9) :
    exec .seqEnc (s.discarding c n) = .next (s.discarding .pollC (n + 1)) := by
  have hcount := s.discarding_noise_toNat c hn.le
  have hlimit : ((s.discarding c n).enc.noise.get s.seq.idx).toNat < noiseLimit := hcount.trans_lt (hn.trans (by decide))
  have hupdate := ((h.discarding c n).encoderUpdate_eq hlimit).trans (if_pos (hcount.symm ▸ Nat.succ_lt_succ hn))
  rw [exec_seqEnc, hupdate]
  exact congrArg _ (s.discarding_succ c n)

/-- After nine discarded samples the next one is accepted. -/
theorem State.SampleIsNoise.exec_accept {s : State} (h : s.SampleIsNoise) (c : SeqCode) :
    exec .seqEnc (s.discarding c 9) = .next
      ((acceptSample s.seq.idx s.sampleAngle (s.meas.turns.get s.seq.idx) (s.discarding c 9)).gotoCode .pollC) := by
  have hcount := s.discarding_noise_toNat c le_rfl
  have hlimit : ((s.discarding c 9).enc.noise.get s.seq.idx).toNat < noiseLimit := hcount.trans_lt (by decide)
  have hupdate := ((h.discarding c 9).encoderUpdate_eq hlimit).trans (if_neg (hcount.symm ▸ Nat.lt_irrefl 10))
  rw [exec_seqEnc, hupdate]
  rfl

/-- Up to nine steps discard their sample. -/
theorem State.SampleIsNoise.execTimes_discard {s : State} (h : s.SampleIsNoise)
    (hstart : s.enc.noise.get s.seq.idx = 0) {n : Nat} (hn : n ≤ 9) :
    ∃ c, execTimes .seqEnc n s = .next (s.discarding c n) := by
  induction n with
  | zero => exact ⟨s.seq.code, by rw [State.discarding_zero hstart, execTimes]⟩
  | succ n ih =>
    obtain ⟨c, hrun⟩ := ih (by omega)
    exact ⟨.pollC, (execTimes_add hrun 1).trans (execTimes_succ (h.exec_discard c (by omega)) 0)⟩

/-- Settles O14: nine steps discard by induction on the run, and the tenth meets the limit. -/
theorem tenthNoiseSampleIsAccepted : Obligations.TenthNoiseSampleIsAccepted := by
  intro s k w raw delta hreset hstart hvalid habove hatMost
  have h : s.SampleIsNoise := ⟨hreset, hvalid, habove, hatMost⟩
  refine ⟨fun j hj => ?_, ?_⟩
  · obtain ⟨c, hrun⟩ := h.execTimes_discard hstart hj
    exact ⟨_, hrun, rfl, rfl, s.discarding_noise_toNat c hj⟩
  · obtain ⟨c, hrun⟩ := h.execTimes_discard hstart le_rfl
    refine ⟨_, (execTimes_add hrun 1).trans (execTimes_succ (h.exec_accept c) 0), ?_⟩
    rw [acceptSample_eq]
    exact ⟨Three.get_set_self _ _ _, Three.get_set_self _ _ _, Three.set_get _ _, Three.get_set_self _ _ _⟩

/-! ### What an encoder step writes -/

/-- The last-known values an encoder step starts from (43_encoder.md R250). -/
def State.knownLast (s : State) : Three W16 := if s.enc.resetLast = true then ⟨0, 0, 0⟩ else s.enc.last

theorem State.knownLast_get (s : State) (j : Fin 3) :
    s.knownLast.get j = if s.enc.resetLast = true then 0 else s.enc.last.get j := by
  rw [State.knownLast, apply_ite (Three.get · j), Three.get_zeros]

/-- The step of sensor k writes the components of sensor k, after a requested reset of all last-known values
(43_encoder.md R250, R256). -/
theorem encoderUpdate_writes (k : Fin 3) (s : State) :
    ∃ n l t p, encoderUpdate k s =
      { s with
        enc := { noise := s.enc.noise.set k n, last := s.knownLast.set k l, resetLast := false }
        meas := { s.meas with turns := s.meas.turns.set k t, pos := s.meas.pos.set k p } } := by
  simp only [encoderUpdate, clearLast_eq]
  split
  · obtain ⟨n, l, t, p, h⟩ := unwrapSample_frame k
      (rawAngle s.cfg.encShift s.cfg.encBits (s.mem.encOff.get k) (s.ports.encWord.get k))
      { s with enc := { s.enc with last := s.knownLast, resetLast := false } }
    exact ⟨n, l, t, p, h⟩
  · refine ⟨s.enc.noise.get k, s.knownLast.get k, s.meas.turns.get k, s.meas.pos.get k, ?_⟩
    simp only [Three.set_get]
    rfl

/-! ### What an encoder step reads -/

/-- Two states agree on everything the step of sensor k reads or writes but the other sensors' components. -/
structure State.SameSensor (k : Fin 3) (s s' : State) : Prop where
  cfg       : s'.cfg = s.cfg
  resetLast : s'.enc.resetLast = s.enc.resetLast
  encWord   : s'.ports.encWord.get k = s.ports.encWord.get k
  encOff    : s'.mem.encOff.get k = s.mem.encOff.get k
  encMult   : s'.mem.encMult.get k = s.mem.encMult.get k
  last      : s'.enc.last.get k = s.enc.last.get k
  noise     : s'.enc.noise.get k = s.enc.noise.get k
  turns     : s'.meas.turns.get k = s.meas.turns.get k
  pos       : s'.meas.pos.get k = s.meas.pos.get k

section

variable {k : Fin 3} {s s' : State}

theorem State.SameSensor.ite {t t' : State} {p : Prop} [Decidable p] (hs : s.SameSensor k s') (ht : t.SameSensor k t') :
    (if p then s else t).SameSensor k (if p then s' else t') := by
  split
  · exact hs
  · exact ht

theorem State.SameSensor.clearLast (h : s.SameSensor k s') :
    (Machine.clearLast s).SameSensor k (Machine.clearLast s') := by
  have hlast : s'.knownLast.get k = s.knownLast.get k := by
    rw [State.knownLast_get, State.knownLast_get, h.resetLast, h.last]
  rw [clearLast_eq, clearLast_eq]
  exact { h with resetLast := rfl, last := hlast }

theorem State.SameSensor.countNoise (h : s.SameSensor k s') (n : BitVec 4) :
    (s.countNoise k n).SameSensor k (s'.countNoise k n) :=
  { h with noise := Three.get_set_congr _ _ k _ }

theorem State.SameSensor.acceptSample (h : s.SameSensor k s') (raw t : W16) :
    (Machine.acceptSample k raw t s).SameSensor k (Machine.acceptSample k raw t s') := by
  simp only [acceptSample_eq, h.encMult]
  exact { h with
    last := Three.get_set_congr _ _ k _
    noise := Three.get_set_congr _ _ k _
    turns := Three.get_set_congr _ _ k _
    pos := Three.get_set_congr _ _ k _ }

theorem State.SameSensor.unwrapSample (h : s.SameSensor k s') (raw : W16) :
    (Machine.unwrapSample k raw s).SameSensor k (Machine.unwrapSample k raw s') := by
  simp only [Machine.unwrapSample, h.last, h.turns, h.noise]
  exact .ite (h.acceptSample _ _) (.ite (h.acceptSample _ _)
    (.ite (.ite (h.countNoise _) (h.acceptSample _ _)) (h.acceptSample _ _)))

/-- The step of sensor k takes states that agree on sensor k to states that agree on it (43_encoder.md R256). -/
theorem State.SameSensor.encoderUpdate (h : s.SameSensor k s') :
    (Machine.encoderUpdate k s).SameSensor k (Machine.encoderUpdate k s') := by
  have hclear := h.clearLast
  simp only [Machine.encoderUpdate, hclear.cfg, hclear.encWord, hclear.encOff]
  exact .ite (hclear.unwrapSample _) hclear

end

/-- Settles O15: the frame is `encoderUpdate_writes`, and two runs from states that agree on the sensor still do. -/
theorem encoderStepsAreIsolated : Obligations.EncoderStepsAreIsolated := by
  constructor
  · rintro s _ ⟨⟩
    obtain ⟨n, l, t, p, h⟩ := encoderUpdate_writes s.seq.idx s
    rw [h]
    refine ⟨?_, rfl, fun j hj => ⟨Three.get_set_ne _ hj n, ?_⟩⟩
    · simp only [State.gotoCode, Three.get_set_self]
    · exact (Three.get_set_ne _ hj l).trans (s.knownLast_get j)
  · rintro s _ s' _ ⟨⟩ ⟨⟩ hidx hcfg hreset ⟨hword, hoff, hmult, hlast, hnoise, hturns, hpos⟩
    have h : s.SameSensor s.seq.idx s' := ⟨hcfg, hreset, hword, hoff, hmult, hlast, hnoise, hturns, hpos⟩
    have hstep := h.encoderUpdate
    rw [hidx]
    exact ⟨hstep.last, hstep.noise, hstep.turns, hstep.pos⟩

end Sys2Proof.Machine

/-! Settling the statements of the family 44_motor_control.md: the motor step of each control mode through MOTOR (R280 to
R286, R293, R294), the MODE and INPUT rows as the same bodies (R270, R290), and where the accumulators change (R296). -/

namespace Sys2Proof.Machine

open Sys2Proof

/-! ### The output stage and the motor step -/

/-- The output stage does what `OutputWritten` says (44_motor_control.md R293, R294). -/
theorem outputWritten_outputStage (m : Fin 2) (u : Int) (isPwm : Bool) (s : State) :
    OutputWritten m u isPwm s (outputStage m u isPwm s) :=
  ⟨rfl, rfl⟩

theorem exec_seqMotor_of_idx {s : State} {m : Fin 2} (h : s.seq.idx = m.castSucc) :
    exec .seqMotor s = .next ((motorControl m s).gotoCode .pollD) :=
  (exec_seqMotor s).trans (onMotor_castSucc _ h)

/-- MOTOR in a mode whose command is u, with the accumulators p left: the accumulators are stored, the output stage writes
u, and nothing else changes (40_scheduler.md R177, 44_motor_control.md R270). -/
theorem exec_seqMotor_of_modeCommand {s : State} {m : Fin 2} {c : Option ModeCode} {u : Int} {p : PidRegs}
    (hidx : s.seq.idx = m.castSucc) (hmode : modeCodeOf s.mem.ctrlMode = c)
    (hcommand : modeCommand c m s = (u, { s with pid := p })) :
    ∃ t, exec .seqMotor s = .next t ∧ OutputWritten m u (decide (c = some .pwm)) s t
      ∧ t = { s with seq := { s.seq with code := .pollD }, pid := p, drive := t.drive, trace := t.trace } := by
  have hstep : motorControl m s = outputStage m u (decide (c = some .pwm)) { s with pid := p } := by
    rw [motorControl, motorStepIn, hmode, hcommand]
  refine ⟨_, exec_seqMotor_of_idx hidx, ?_⟩
  rw [hstep]
  exact ⟨outputWritten_outputStage m u _ { s with pid := p }, rfl⟩

/-! ### The modes with a PID -/

theorem deflError_eq (m : Fin 2) (s : State) :
    deflError m s = (s.refC.pos.get m).toInt + s.meas.pos.a2.toInt - (s.meas.pos.get m.castSucc).toInt := by
  rw [deflError, sensorOf_eq]
  rfl

/-- MOTOR in a mode that is one position-type evaluation (44_motor_control.md R280, R281). -/
theorem exec_seqMotor_posl {s : State} {m : Fin 2} {c : ModeCode} {g : Gains} {e : Int} (hidx : s.seq.idx = m.castSucc)
    (hmode : s.mem.ctrlMode = c.bits) (hc : c ≠ .pwm) (hcommand : modeCommand (some c) m s = pid .posl m g e s) :
    ∃ u int eprev t, exec .seqMotor s = .next t
      ∧ PidEvaluates s.cfg g s.cfg.posIntSat (s.pid.posInt.get m) (s.pid.posEprev.get m) e u int eprev
      ∧ OutputWritten m u false s t
      ∧ t = { s with
              seq := { s.seq with code := .pollD }
              pid := { s.pid with posInt := s.pid.posInt.set m int, posEprev := s.pid.posEprev.set m eprev }
              drive := t.drive
              trace := t.trace } := by
  obtain ⟨u, int, eprev, hpid, heval⟩ := pid_posl_spec m g e s
  obtain ⟨t, hexec, hout, hframe⟩ :=
    exec_seqMotor_of_modeCommand hidx (modeCodeOf_eq_some_iff.2 hmode.symm) (hcommand.trans hpid)
  rw [decide_eq_false (mt Option.some.inj hc)] at hout
  exact ⟨u, int, eprev, t, hexec, heval, hout, hframe⟩

/-- MOTOR in a mode that is a position-type evaluation and the inner loop on its result (44_motor_control.md R282, R283). -/
theorem exec_seqMotor_cascade {s : State} {m : Fin 2} {c : ModeCode} {g gin : Gains} {e : Int}
    (hidx : s.seq.idx = m.castSucc) (hmode : s.mem.ctrlMode = c.bits) (hc : c ≠ .pwm)
    (hcommand : modeCommand (some c) m s = innerLoop m gin (pid .posl m g e s).1 (pid .posl m g e s).2) :
    ∃ i u int eprev cint ceprev t, exec .seqMotor s = .next t
      ∧ PidEvaluates s.cfg g s.cfg.posIntSat (s.pid.posInt.get m) (s.pid.posEprev.get m) e i int eprev
      ∧ PidEvaluates s.cfg gin s.cfg.currIntSat (s.pid.currInt.get m) (s.pid.currEprev.get m)
          (max (-(s.mem.currLimit.toNat : Int)) (min i s.mem.currLimit.toNat) - (s.meas.curr.get m).toInt) u cint ceprev
      ∧ OutputWritten m u false s t
      ∧ t = { s with
              seq := { s.seq with code := .pollD }
              pid := { posInt := s.pid.posInt.set m int, posEprev := s.pid.posEprev.set m eprev,
                       currInt := s.pid.currInt.set m cint, currEprev := s.pid.currEprev.set m ceprev }
              drive := t.drive
              trace := t.trace } := by
  obtain ⟨i, int, eprev, hpid, heval⟩ := pid_posl_spec m g e s
  rw [hpid] at hcommand
  obtain ⟨u, cint, ceprev, hinner, hinnerEval⟩ := pid_currl_spec m gin
    (clamp i (-s.mem.currLimit.toNat) s.mem.currLimit.toNat - (s.meas.curr.get m).toInt)
    { s with pid := { s.pid with posInt := s.pid.posInt.set m int, posEprev := s.pid.posEprev.set m eprev } }
  obtain ⟨t, hexec, hout, hframe⟩ :=
    exec_seqMotor_of_modeCommand hidx (modeCodeOf_eq_some_iff.2 hmode.symm) (hcommand.trans hinner)
  rw [decide_eq_false (mt Option.some.inj hc)] at hout
  exact ⟨i, u, int, eprev, cint, ceprev, t, hexec, heval, hinnerEval, hout, hframe⟩

/-- Settles O17: POSITION and DEFLECTION are the position-type evaluation, each on its gains and its error. -/
theorem motorRunsThePositionLoop : Obligations.MotorRunsThePositionLoop := by
  rintro s m hidx (hmode | hmode)
  · have hposition := exec_seqMotor_posl (c := .position) hidx hmode (by decide) rfl
    simpa [hmode, posError] using hposition
  · have hdeflection := exec_seqMotor_posl (c := .deflection) hidx hmode (by decide) rfl
    simpa [hmode, deflError_eq] using hdeflection

/-- Settles O19: POS_CURR and DEFL_CURR are the cascade, each on its two gain sets and its error. -/
theorem motorRunsTheCascades : Obligations.MotorRunsTheCascades := by
  rintro s m hidx (hmode | hmode)
  · have hposition := exec_seqMotor_cascade (c := .posCurr) hidx hmode (by decide) rfl
    simpa [hmode, posError] using hposition
  · have hdeflection := exec_seqMotor_cascade (c := .deflCurr) hidx hmode (by decide) rfl
    simpa [hmode, deflError_eq] using hdeflection

/-- Settles O18: CURRENT is the current-type evaluation on the reference as it stands. -/
theorem motorRunsTheCurrentLoop : Obligations.MotorRunsTheCurrentLoop := by
  intro s m hidx hmode
  obtain ⟨u, int, eprev, hpid, heval⟩ :=
    pid_currl_spec m s.mem.gCurr ((s.refC.pos.get m).toInt - (s.meas.curr.get m).toInt) s
  obtain ⟨t, hexec, hout, hframe⟩ :=
    exec_seqMotor_of_modeCommand (c := some .current) hidx (modeCodeOf_eq_some_iff.2 hmode.symm) hpid
  exact ⟨u, int, eprev, t, hexec, heval, hout, hframe⟩

/-! ### The modes without a PID -/

/-- A command of 0 inside the limits drives nothing (44_motor_control.md R286, R293, R294). -/
theorem outputStage_zero {s : State} (h : 0 < s.cfg.pwmMax) (m : Fin 2) :
    outputStage m 0 false s =
      { s with
        drive := { s.drive with dir := s.drive.dir.set m false, mag := s.drive.mag.set m 0, sign := s.drive.sign.set m .pos }
        trace := s.trace ++ [.pwm m false 0] } := by
  have hvalue : outputValue false s.cfg s.drive.pwmLimit 0 = 0 := by
    have hclamp : clamp 0 (-s.cfg.pwmMax) s.cfg.pwmMax = 0 := by
      unfold clamp
      omega
    simp [outputValue, hclamp, tdiv]
  rw [outputStage, hvalue]
  rfl

/-- Settles O20: PWM commands the reference, and a reserved mode commands 0; neither writes an accumulator. -/
theorem motorPwmAndReservedModes : Obligations.MotorPwmAndReservedModes := by
  refine fun s m hidx => ⟨fun hmode => ?_, fun hmode hmax => ?_⟩
  · exact exec_seqMotor_of_modeCommand (c := some .pwm) hidx (modeCodeOf_eq_some_iff.2 hmode.symm) rfl
  · have hcontrol : motorControl m s = outputStage m 0 false s := by
      rw [motorControl, modeCodeOf_reserved hmode]
      rfl
    rw [exec_seqMotor_of_idx hidx, hcontrol, outputStage_zero hmax]
    rfl

/-! ### The MODE and INPUT rows -/

/-- A MODE row is the motor step of its mode (44_motor_control.md R270). -/
theorem exec_modeInstr (c : ModeCode) (s : State) : exec c.instr s = onMotor (motorStepIn (some c)) s := by
  cases c <;> rfl

/-- A motor step does not read the mode register but to choose the mode (44_motor_control.md R270). -/
theorem motorControl_ctrlMode (c : ModeCode) (m : Fin 2) (s : State) :
    motorControl m { s with mem := { s.mem with ctrlMode := c.bits } } =
      { motorStepIn (some c) m s with mem := { s.mem with ctrlMode := c.bits } } := by
  rw [motorControl, modeCodeOf_bits]
  cases c <;> rfl

/-- Settles O34: a row and the step with its mode selected run one body, which does not read the selecting register. -/
theorem modeAndInputRowsAreTheBodies : Obligations.ModeAndInputRowsAreTheBodies := by
  refine fun s => ⟨fun c m hidx => ?_, fun c => ?_⟩
  · obtain ⟨p, d, dir, mag, hstep⟩ := motorStepIn_emits (some c) m s
    have hrow : exec c.instr s = .next (motorStepIn (some c) m s) :=
      (exec_modeInstr c s).trans (onMotor_castSucc _ hidx)
    refine ⟨_, hrow.trans (congrArg Host.Outcome.next hstep), rfl, rfl, ?_⟩
    have hmotor := exec_seqMotor_of_idx (s := { s with mem := { s.mem with ctrlMode := c.bits } }) hidx
    rw [motorControl_ctrlMode, hstep] at hmotor
    exact hmotor
  · cases c with
    | external => exact ⟨s, rfl, rfl, rfl, rfl⟩
    | encoder3 => exact ⟨overrideRefs s, rfl, rfl, rfl, rfl⟩

/-! ### What keeps the accumulators -/

/-- An outcome that, when it is a next state, keeps the accumulators of `s`. -/
def Result.KeepsPid (s : State) (r : Result) : Prop := ∀ t, r = .next t → t.pid = s.pid

theorem Result.keepsPid_next {s t : State} (h : t.pid = s.pid) : Result.KeepsPid s (.next t) := by
  rintro u ⟨⟩
  exact h

theorem pid_of_next {s t u : State} (h : (.next u : Result) = .next t) (hu : u.pid = s.pid) : t.pid = s.pid :=
  Result.keepsPid_next hu t h

theorem pid_ite {s t u : State} {p : Prop} [Decidable p] (ht : t.pid = s.pid) (hu : u.pid = s.pid) :
    (if p then t else u).pid = s.pid := by
  split
  · exact ht
  · exact hu

theorem enterDrain_pid (p : SeqPos) (s : State) : (enterDrain p s).pid = s.pid := pid_ite rfl rfl

theorem poll_pid (p : SeqPos) (s : State) : (poll p s).pid = s.pid := pid_ite (enterDrain_pid p s) rfl

theorem fifoPush_pid (s : State) (b : Byte) : (s.fifoPush b).pid = s.pid := pid_ite rfl rfl

theorem encoderUpdate_pid (k : Fin 3) (s : State) : (encoderUpdate k s).pid = s.pid := by
  obtain ⟨e, m, hframe⟩ := encoderUpdate_frame k s
  exact (congrArg State.pid hframe :)

theorem analogFrontEnd_pid (s : State) : (analogFrontEnd s).pid = s.pid :=
  (congrArg State.pid (analogFrontEnd_frame s) :)

theorem inputOverride_pid (s : State) : (inputOverride s).pid = s.pid := by
  rw [inputOverride_eq]
  exact pid_ite rfl rfl

theorem calPhaseBody_pid (p : CalphCode) (s : State) : (calPhaseBody p s).pid = s.pid :=
  (congrArg State.pid (calPhaseBody_frame p s) :)

theorem calTick_pid (s : State) : (calTick s).pid = s.pid := by
  rcases calTick_cases s with ⟨-, h⟩ | ⟨-, h⟩ <;> rw [h]
  exact calPhaseBody_pid _ _

/-- A byte step on what a pop leaves keeps the accumulators of the state before the pop (41_framer.md R200). -/
theorem keepsPid_framerByteIn_of_fifoPop {s u : State} {b : Byte} (h : s.fifoPop = some (b, u)) (f : FramerCode) :
    Result.KeepsPid s (framerByteIn f b u) := by
  intro t ht
  obtain ⟨rest, -, rfl⟩ := fifoPop_spec h
  exact (congrArg State.pid (framerByteIn_frame ht) :)

theorem keepsPid_framerInstr (f : FramerCode) (s : State) : Result.KeepsPid s (framerInstr f s) := by
  unfold framerInstr
  split
  · next h => exact keepsPid_framerByteIn_of_fifoPop h f
  · exact Result.keepsPid_next rfl

theorem keepsPid_drainStep (s : State) : Result.KeepsPid s (drainStep s) := by
  have hend : Result.KeepsPid s (.next (drainEnd s)) := Result.keepsPid_next rfl
  unfold drainStep
  split
  · split
    · next h => exact keepsPid_framerByteIn_of_fifoPop h _
    · exact hend
  · exact hend

theorem keepsPid_execEnc (k : Byte) (w : W32) (s : State) : Result.KeepsPid s (execEnc k w s) := by
  unfold execEnc
  split <;> exact Result.keepsPid_next rfl

theorem keepsPid_execAdc (c : Byte) (v : W16) (s : State) : Result.KeepsPid s (execAdc c v s) := by
  unfold execAdc
  split <;> exact Result.keepsPid_next rfl

theorem writeReg_pid (r : Reg) (v : W32) (s : State) : (writeReg r v s).pid = s.pid := by
  cases r with
  | cmdCalStart | cmdResetLast | rxReady => exact pid_ite rfl rfl
  | _ => rfl

theorem regWrite_pid (a : Byte) (v : W32) (s : State) : (regWrite a v s).pid = s.pid := by
  cases h : regAt a with
  | none => rw [regWrite_of_reserved h]
  | some r => rw [regWrite_of_regAt h, writeReg_pid]

/-! ### Where the accumulators change -/

/-- A motor step in PWM mode or in a reserved mode keeps the accumulators (44_motor_control.md R285, R286, R296). -/
theorem motorStepIn_pid (c : Option ModeCode) (m : Fin 2) (s : State) :
    (motorStepIn c m s).pid = s.pid ∨ ∃ x, c = some x ∧ x ≠ .pwm := by
  have hnone (h : c = some .pwm ∨ c = none) : (motorStepIn c m s).pid = s.pid :=
    (congrArg State.pid (modeCommand_no_pid h m s) :)
  cases c with
  | none => exact .inl (hnone (.inr rfl))
  | some x =>
    by_cases hx : x = .pwm
    · exact .inl (hnone (.inl (congrArg some hx)))
    · exact .inr ⟨x, rfl, hx⟩

theorem onMotor_pid {f : Fin 2 → State → State} {s t : State} {p : Prop} (hf : ∀ m, (f m s).pid = s.pid ∨ p)
    (h : onMotor f s = .next t) : t.pid = s.pid ∨ p := by
  unfold onMotor at h
  split at h <;> cases h
  exact hf _

/-- The control modes of a motor step with a PID (44_motor_control.md R280 to R284). -/
def State.RunsPid (s : State) : Prop := s.mem.ctrlMode.toNat ≤ 5 ∧ s.mem.ctrlMode ≠ 1

theorem runsPid_of_modeCodeOf {s : State} {x : ModeCode} (h : modeCodeOf s.mem.ctrlMode = some x) (hx : x ≠ .pwm) :
    s.RunsPid := by
  rw [State.RunsPid, ← modeCodeOf_eq_some_iff.1 h]
  cases x with
  | pwm => exact absurd rfl hx
  | position | current | posCurr | deflection | deflCurr => decide

/-- Of the micro-operations only MOTOR in a mode with a PID changes the accumulators (40_scheduler.md R171 to R183). -/
theorem microOp_pid {c : SeqCode} {s t : State} (h : microOp c s = .next t) :
    t.pid = s.pid ∨ (c = .motor ∧ s.RunsPid) := by
  cases c with
  | motor =>
    refine onMotor_pid (f := fun m u => (motorControl m u).gotoCode .pollD) (fun m => ?_) h
    rcases motorStepIn_pid (modeCodeOf s.mem.ctrlMode) m s with hkeep | ⟨x, hc, hx⟩
    · exact .inl hkeep
    · exact .inr ⟨rfl, runsPid_of_modeCodeOf hc hx⟩
  | idle => exact .inl (pid_of_next h (pid_ite rfl rfl))
  | adcStart | swap | callback => exact .inl (pid_of_next h rfl)
  | drainB => exact .inl (pid_of_next h (enterDrain_pid _ s))
  | enc => exact .inl (pid_of_next h (encoderUpdate_pid s.seq.idx s))
  | pollC | pollD => exact .inl (pid_of_next h (poll_pid _ s))
  | inputOvr => exact .inl (pid_of_next h (inputOverride_pid s))
  | adcWait => exact .inl (pid_of_next h (pid_ite rfl (pid_ite (enterDrain_pid _ s) rfl)))
  | afe => exact .inl (pid_of_next h (analogFrontEnd_pid s))
  | cal => exact .inl (pid_of_next h (calTick_pid s))
  | drain => exact .inl (keepsPid_drainStep s t h)

/-- What can write the accumulators: RESET, a MODE row with a PID, or MOTOR in a mode with a PID, as its own row or as
STEP. -/
inductive PidWrite (i : Instr) (s : State) (t : State) : Prop where
  | keeps (h : t.pid = s.pid)
  | reset (hi : i = .reset)
  | modeRow (x : ModeCode) (hi : i = x.instr) (hx : x ≠ .pwm)
  | motor (hi : Performs .motor i s) (hmode : s.RunsPid)

theorem PidWrite.of_microOp {c : SeqCode} {i : Instr} {s t : State} (hi : Performs c i s) (h : microOp c s = .next t) :
    PidWrite i s t := by
  rcases microOp_pid h with hkeep | ⟨rfl, hmode⟩
  · exact .keeps hkeep
  · exact .motor hi hmode

theorem PidWrite.of_modeInstr {x : ModeCode} {s t : State} (h : exec x.instr s = .next t) : PidWrite x.instr s t := by
  rw [exec_modeInstr] at h
  rcases onMotor_pid (fun m => motorStepIn_pid (some x) m s) h with hkeep | ⟨y, hy, hne⟩
  · exact .keeps hkeep
  · cases hy
    exact .modeRow x rfl hne

/-- What an instruction can write of the accumulators: the TXN rows one by one, the SEQ rows and STEP by their
micro-operation, and the code rows by their body. -/
theorem exec_pidWrite {i : Instr} {s t : State} (h : exec i s = .next t) : PidWrite i s t := by
  cases i with
  | reset => exact .reset rfl
  | timer | adcdone => exact .keeps (pid_of_next h rfl)
  | rxb b => exact .keeps (pid_of_next h (fifoPush_pid s b))
  | enc k w => exact .keeps (keepsPid_execEnc k w s t h)
  | adc c v => exact .keeps (keepsPid_execAdc c v s t h)
  | wr a v => exact .keeps (pid_of_next h (pid_ite (regWrite_pid a v s) rfl))
  | rd a => exact .keeps (pid_of_next h (pid_ite rfl rfl))
  | hdone => exact .keeps (pid_of_next h (pid_ite rfl rfl))
  | step => exact .of_microOp (.inr ⟨rfl, rfl⟩) h
  | seqIdle => exact .of_microOp (c := .idle) (.inl rfl) h
  | seqAdcStart => exact .of_microOp (c := .adcStart) (.inl rfl) h
  | seqDrainB => exact .of_microOp (c := .drainB) (.inl rfl) h
  | seqEnc => exact .of_microOp (c := .enc) (.inl rfl) h
  | seqPollC => exact .of_microOp (c := .pollC) (.inl rfl) h
  | seqInputOvr => exact .of_microOp (c := .inputOvr) (.inl rfl) h
  | seqMotor => exact .of_microOp (c := .motor) (.inl rfl) h
  | seqPollD => exact .of_microOp (c := .pollD) (.inl rfl) h
  | seqAdcWait => exact .of_microOp (c := .adcWait) (.inl rfl) h
  | seqAfe => exact .of_microOp (c := .afe) (.inl rfl) h
  | seqCal => exact .of_microOp (c := .cal) (.inl rfl) h
  | seqSwap => exact .of_microOp (c := .swap) (.inl rfl) h
  | seqDrain => exact .of_microOp (c := .drain) (.inl rfl) h
  | seqCallback => exact .of_microOp (c := .callback) (.inl rfl) h
  | framerWaitStart | framerWaitId | framerWaitLength | framerReceive | framerUnload =>
    exact .keeps (keepsPid_framerInstr _ s t h)
  | modePosition => exact .of_modeInstr (x := .position) h
  | modePwm => exact .of_modeInstr (x := .pwm) h
  | modeCurrent => exact .of_modeInstr (x := .current) h
  | modePosCurr => exact .of_modeInstr (x := .posCurr) h
  | modeDeflection => exact .of_modeInstr (x := .deflection) h
  | modeDeflCurr => exact .of_modeInstr (x := .deflCurr) h
  | inputExternal | inputEncoder3 => exact .keeps (pid_of_next h rfl)
  | calphStop | calphStart | calphPause1 | calphContinue1 | calphPause2 | calphContinue2 =>
    exact .keeps (pid_of_next h (calPhaseBody_pid _ s))

/-- Settles O48: the writers of the accumulators (`exec_pidWrite`), the MODE rows with a PID named one by one. -/
theorem accumulatorsSurviveModeChanges : Obligations.AccumulatorsSurviveModeChanges := by
  intro i s t h
  cases exec_pidWrite h with
  | keeps hkeep => exact .inl hkeep
  | reset hi => exact .inr (.inl hi)
  | modeRow x hi hx =>
    refine .inr (.inr (.inl ?_))
    rw [hi]
    cases x with
    | pwm => exact absurd rfl hx
    | position | current | posCurr | deflection | deflCurr => decide
  | motor hi hmode => exact .inr (.inr (.inr ⟨hi, hmode⟩))

end Sys2Proof.Machine

/-! Settling the statements of the family 46_calibration.md: the CAL step in each phase, whole (R331 to R337, with
40_scheduler.md R181), the CALPH rows as the same bodies (R330), and how CONTINUE1 is left (R334, R339). -/

namespace Sys2Proof.Machine

open Sys2Proof

/-! ### The CAL step -/

/-- CAL below the wrap of the divider counts (40_scheduler.md R181). -/
theorem exec_seqCal_of_ne_wrap {s : State} (hdiv : s.calDiv + 1 ≠ s.cfg.calDiv) :
    exec .seqCal s = .next ({ s with calDiv := s.calDiv + 1 }.gotoCode .swap) :=
  congrArg (fun t : State => Host.Outcome.next (t.gotoCode .swap)) (if_neg hdiv)

/-- CAL at the wrap of the divider is one invocation of the phase (40_scheduler.md R181, 46_calibration.md R330). -/
theorem exec_seqCal_of_wrap {s : State} {p : CalphCode} (hdiv : s.calDiv + 1 = s.cfg.calDiv) (hphase : s.cal.phase = p) :
    exec .seqCal s = .next ((calPhaseBody p { s with calDiv := 0 }).gotoCode .swap) := by
  have htick : calTick s = calPhaseBody s.cal.phase { s with calDiv := 0 } := if_pos hdiv
  rw [← hphase, ← htick]
  rfl

/-- Settles O23: the two branches of the divider, the second with the body of STOP, which is empty. -/
theorem calRunsAtTheSubRate : Obligations.CalRunsAtTheSubRate :=
  fun _ => ⟨exec_seqCal_of_ne_wrap, exec_seqCal_of_wrap⟩

/-- Settles O25: the bodies of Start and Continue2 at the wrap. -/
theorem calibrationStartsAndFinishes : Obligations.CalibrationStartsAndFinishes :=
  fun _ hdiv => ⟨exec_seqCal_of_wrap hdiv, exec_seqCal_of_wrap hdiv⟩

/-- Settles O26: the bodies of the two pauses at the wrap, the move to SWAP taken into both branches of each. -/
theorem calibrationPauses : Obligations.CalibrationPauses := by
  refine fun s hdiv => ⟨fun hphase => ?_, fun hphase => ?_⟩ <;> rw [exec_seqCal_of_wrap hdiv hphase]
  · exact congrArg Host.Outcome.next (apply_ite (State.gotoCode · .swap) ((s.cal.pause + 1).toNat = s.cfg.pause1Ticks) _ _)
  · exact congrArg Host.Outcome.next (apply_ite (State.gotoCode · .swap) ((s.cal.pause + 1).toNat = s.cfg.pause2Ticks) _ _)

/-! ### The sweep and the capture -/

/-- A current is above the threshold in magnitude (46_calibration.md R334). -/
abbrev State.AboveThreshold (s : State) (x : W32) : Prop := s.cfg.calCurrThresh < max x.toInt (-x.toInt)

/-- A CONTINUE1 invocation: a capture overwrites the swept references, so the sweep shows only without one
(46_calibration.md R333, R334). -/
theorem calContinue1_eq (s : State) :
    calContinue1 s =
      if s.AboveThreshold s.meas.curr.a0 then calCapture 1 s
      else if s.AboveThreshold s.meas.curr.a1 then calCapture 0 s
      else calSweep s := by
  simp only [calContinue1, calCheck, iabs_eq_max]
  rfl

/-- Settles O27: the three branches of a CONTINUE1 invocation at the wrap. -/
theorem calibrationSweepsAndCaptures : Obligations.CalibrationSweepsAndCaptures := by
  intro s hdiv hphase t captured above
  have hbody : exec .seqCal s = .next ((calContinue1 { s with calDiv := 0 }).gotoCode .swap) :=
    exec_seqCal_of_wrap hdiv hphase
  rw [hbody, calContinue1_eq]
  refine ⟨fun h0 => ?_, fun h0 h1 => ?_, fun h0 h1 => ?_⟩
  · rw [if_pos h0]
    rfl
  · rw [if_neg h0, if_pos h1]
    rfl
  · rw [if_neg h0, if_neg h1]
    rfl

/-! ### The CALPH rows -/

/-- A CALPH row is the body of its phase (46_calibration.md R330). -/
theorem exec_calphInstr (p : CalphCode) (s : State) : exec p.instr s = .next (calPhaseBody p s) := by
  cases p <;> rfl

/-- An invocation neither reads nor writes the divider (46_calibration.md R330). -/
theorem calPhaseBody_calDiv (p : CalphCode) (n : Nat) (s : State) :
    calPhaseBody p { s with calDiv := n } = { calPhaseBody p s with calDiv := n } := by
  cases p with
  | stop | start | continue2 => rfl
  | pause1 =>
    simp only [calPhaseBody, calPause1]
    split <;> rfl
  | pause2 =>
    simp only [calPhaseBody, calPause2]
    split <;> rfl
  | continue1 =>
    simp only [calPhaseBody, calContinue1_eq]
    split
    · rfl
    · split <;> rfl

/-- Settles O35: the row and the CAL step at the wrap run one body, which the divider does not reach. -/
theorem calphRowsAreTheInvocation : Obligations.CalphRowsAreTheInvocation := by
  intro p s hphase hcfg
  have hseq : (calPhaseBody p s).seq = s.seq := (congrArg State.seq (calPhaseBody_frame p s) :)
  have hcalDiv : (calPhaseBody p s).calDiv = s.calDiv := (congrArg State.calDiv (calPhaseBody_frame p s) :)
  refine ⟨calPhaseBody p s, exec_calphInstr p s, hseq, hcalDiv, ?_⟩
  have hwrap := exec_seqCal_of_wrap (s := { s with calDiv := s.cfg.calDiv - 1 }) (Nat.sub_add_cancel hcfg) hphase
  rw [hwrap, calPhaseBody_calDiv p 0 s, ← hseq]
  rfl

/-! ### What keeps the session -/

theorem enterDrain_cal (p : SeqPos) (s : State) : (enterDrain p s).cal = s.cal := by
  rw [enterDrain_eq]
  split <;> rfl

theorem poll_cal (p : SeqPos) (s : State) : (poll p s).cal = s.cal := by
  rw [poll_eq]
  split <;> rfl

theorem encoderUpdate_cal (k : Fin 3) (s : State) : (encoderUpdate k s).cal = s.cal := by
  obtain ⟨e, m, hframe⟩ := encoderUpdate_frame k s
  exact (congrArg State.cal hframe :)

theorem analogFrontEnd_cal (s : State) : (analogFrontEnd s).cal = s.cal :=
  (congrArg State.cal (analogFrontEnd_frame s) :)

theorem inputOverride_cal (s : State) : (inputOverride s).cal = s.cal := by
  rw [inputOverride_eq]
  split <;> rfl

theorem motorControl_cal (m : Fin 2) (s : State) : (motorControl m s).cal = s.cal :=
  (congrArg State.cal (motorStepIn_frame _ m s) :)

theorem drainStep_cal {s t : State} (h : drainStep s = .next t) : t.cal = s.cal := by
  by_cases hl : s.drainFrames.toNat < s.cfg.framesPerDrain
  · cases hfifo : s.ports.rxFifo with
    | nil =>
      rw [drainStep_end (.inl hfifo)] at h
      cases h
      rfl
    | cons b rest =>
      rw [drainStep_byte hfifo hl] at h
      exact (congrArg State.cal (framerByteIn_frame h) :)
  · rw [drainStep_end (.inr (Nat.not_lt.1 hl))] at h
    cases h
    rfl

/-- A host write reaches the session only from STOP (47_host_interface.md R363). -/
theorem regWrite_cal {s : State} (hphase : s.cal.phase ≠ .stop) (a : Byte) (v : W32) : (regWrite a v s).cal = s.cal := by
  cases h : regAt a with
  | none => rw [regWrite_of_reserved h]
  | some r =>
    rw [regWrite_of_regAt h]
    cases r with
    | cmdCalStart => simp [writeReg, writeCalStart, hphase]
    | cmdResetLast | rxReady =>
      simp only [writeReg, writeResetLast, writeRxReady]
      split <;> rfl
    | _ => rfl

/-- Of the micro-operations only CAL changes the session (40_scheduler.md R171 to R183). -/
theorem microOp_cal {c : SeqCode} {s t : State} (hc : c ≠ .cal) (h : microOp c s = .next t) : t.cal = s.cal := by
  cases c with
  | cal => exact absurd rfl hc
  | drain => exact drainStep_cal h
  | motor =>
    simp only [microOp, execSeqMotor, onMotor] at h
    split at h <;> cases h
    exact motorControl_cal _ s
  | idle =>
    cases h
    split <;> rfl
  | adcStart | swap | callback =>
    cases h
    rfl
  | drainB =>
    cases h
    exact enterDrain_cal _ s
  | enc =>
    cases h
    exact encoderUpdate_cal _ s
  | pollC | pollD =>
    cases h
    exact poll_cal _ s
  | inputOvr =>
    cases h
    exact inputOverride_cal s
  | adcWait =>
    cases h
    split
    · rfl
    · split
      · exact enterDrain_cal _ s
      · rfl
  | afe =>
    cases h
    exact analogFrontEnd_cal s

/-- Outside STOP, of the transactions only RESET and STEP change the session (47_host_interface.md R360 to R372). -/
theorem exec_txn_cal {op ai : Byte} {data : W32} {i : Instr} {s t : State} (hrow : TxnRow op ai data i)
    (hphase : s.cal.phase ≠ .stop) (h : exec i s = .next t) : t.cal = s.cal ∨ i = .reset ∨ i = .step := by
  cases hrow with
  | reset => exact .inr (.inl rfl)
  | step => exact .inr (.inr rfl)
  | timer | adcdone =>
    cases h
    exact .inl rfl
  | rxb b =>
    cases h
    rw [fifoPush_eq]
    split <;> exact .inl rfl
  | enc k w =>
    simp only [exec, execEnc] at h
    split at h <;> cases h <;> exact .inl rfl
  | adc c v =>
    simp only [exec, execAdc] at h
    split at h <;> cases h <;> exact .inl rfl
  | wr a v =>
    cases h
    split
    · exact .inl (regWrite_cal hphase _ _)
    · exact .inl rfl
  | rd a | hdone =>
    cases h
    split <;> exact .inl rfl

/-! ### How CONTINUE1 is left -/

/-- An invocation leaves CONTINUE1 only by a capture, to PAUSE2 (46_calibration.md R334, R339). -/
theorem calContinue1_leaves {s : State} (h : (calContinue1 s).cal.phase ≠ s.cal.phase) :
    (calContinue1 s).cal.phase = .pause2 ∧ (s.AboveThreshold s.meas.curr.a0 ∨ s.AboveThreshold s.meas.curr.a1) := by
  rw [calContinue1_eq] at h ⊢
  by_cases h0 : s.AboveThreshold s.meas.curr.a0
  · rw [if_pos h0]
    exact ⟨rfl, .inl h0⟩
  · rw [if_neg h0] at h ⊢
    by_cases h1 : s.AboveThreshold s.meas.curr.a1
    · rw [if_pos h1]
      exact ⟨rfl, .inr h1⟩
    · rw [if_neg h1] at h
      exact absurd rfl h

theorem calTick_leaves_continue1 {s : State} (hphase : s.cal.phase = .continue1) (h : (calTick s).cal.phase ≠ .continue1) :
    (calTick s).cal.phase = .pause2 ∧ (s.AboveThreshold s.meas.curr.a0 ∨ s.AboveThreshold s.meas.curr.a1) := by
  rcases calTick_cases s with ⟨-, htick⟩ | ⟨-, htick⟩
  · rw [htick, hphase] at h ⊢
    exact calContinue1_leaves (s := { s with calDiv := 0 }) (hphase.symm ▸ h)
  · rw [htick] at h
    exact absurd hphase h

/-- A STEP leaves CONTINUE1 only in CAL (40_scheduler.md R181). -/
theorem exec_step_leaves_continue1 {s t : State} (hphase : s.cal.phase = .continue1) (h : exec .step s = .next t)
    (ht : t.cal.phase ≠ .continue1) :
    t.cal.phase = .pause2 ∧ s.seq.code = .cal
      ∧ (s.AboveThreshold s.meas.curr.a0 ∨ s.AboveThreshold s.meas.curr.a1) := by
  rw [exec_step_of_code rfl] at h
  by_cases hcode : s.seq.code = .cal
  · rw [hcode] at h
    cases h
    obtain ⟨hpause, habove⟩ := calTick_leaves_continue1 hphase ht
    exact ⟨hpause, hcode, habove⟩
  · rw [microOp_cal hcode h] at ht
    exact absurd hphase ht

/-- Settles O51: of the transactions only RESET and STEP change the session, and STEP leaves CONTINUE1 only by a capture. -/
theorem continue1HasNoTimeout : Obligations.Continue1HasNoTimeout := by
  intro s t h hphase ht
  rcases step_cases h with rfl | ⟨w, rest, htxns, rfl | ⟨i, hdecode, hexec⟩⟩
  · exact absurd hphase ht
  · exact absurd hphase ht
  · obtain ⟨-, hrow⟩ := txnRow_of_decodeTxn hdecode
    have hne : s.cal.phase ≠ .stop := by
      rw [hphase]
      decide
    rcases exec_txn_cal (s := { s with txns := rest }) hrow hne hexec with hkeep | rfl | rfl
    · exact absurd (hkeep ▸ hphase) ht
    · exact .inl ⟨w, rest, htxns, hdecode⟩
    · exact .inr (exec_step_leaves_continue1 (s := { s with txns := rest }) hphase hexec ht)

end Sys2Proof.Machine

/-! Settling the statements of the family 47_host_interface.md: the latches of the environment (R368 to R370), WR and RD
(R360 to R365), the hold of a callback (R366, R367), STEP (R372), and what a step does with the next word (R373). -/

namespace Sys2Proof.Machine

open Sys2Proof

/-! ### The latches of the environment -/

/-- Settles O3: the push appends or loses the byte, and the flag is set after it. -/
theorem rxbAppendsOrLosesTheByte : Obligations.RxbAppendsOrLosesTheByte := by
  intro b s
  refine congrArg Host.Outcome.next ?_
  rw [fifoPush_eq]
  split <;> rfl

theorem exec_enc_of_index {a : Byte} {k : Fin 3} (h : index3 a = some k) (w : W32) (s : State) :
    exec (.enc a w) s = .next { s with ports := { s.ports with encWord := s.ports.encWord.set k w } } := by
  simp only [exec, execEnc, h]

theorem exec_adc_of_index {a : Byte} {k : Fin 3} (h : index3 a = some k) (v : W16) (s : State) :
    exec (.adc a v) s = .next { s with ports := { s.ports with adcRaw := s.ports.adcRaw.set k v } } := by
  simp only [exec, execAdc, h]

/-- Settles O4: each of the three indices names its sensor and its channel. -/
theorem encoderAndAnalogInputsAreLatched : Obligations.EncoderAndAnalogInputsAreLatched :=
  fun k w v s => ⟨exec_enc_of_index (index3_ofNat k) w s, exec_adc_of_index (index3_ofNat k) v s, rfl⟩

/-! ### Host reads and writes -/

/-- Settles O6: the host may act in IDLE and CALLBACK only. -/
theorem rdEmitsTheRegister : Obligations.RdEmitsTheRegister :=
  fun _ s => congrArg Host.Outcome.next (if_congr (hostMayAct_iff s) rfl rfl)

theorem exec_wr_of_not_hostMayAct {s : State} (hidle : s.seq.code ≠ .idle) (hcallback : s.seq.code ≠ .callback)
    (a : Byte) (v : W32) : exec (.wr a v) s = .next s := by
  have hact : ¬ hostMayAct s = true := fun h => ((hostMayAct_iff s).1 h).elim hidle hcallback
  exact congrArg Host.Outcome.next (if_neg hact)

/-- A register outside the writable addresses is read-only (10_state.md R56). -/
theorem writeReg_of_not_writable {r : Reg} (h : r.addr.toNat ∉ writableAddresses) (v : W32) (s : State) :
    writeReg r v s = s := by
  cases r with
  | ctrlMode | inputMode | nodeAddr | posLimEn | posLimInf _ | posLimSup _ | currLimit | maxStiff
  | gain _ _ | encOff _ | encMult _ => exact absurd (List.mem_append_left _ (isConfig_addr rfl)) h
  | refPendPos m =>
    have hmem : (Reg.refPendPos m).addr.toNat ∈ writableAddresses := by revert m; decide
    exact absurd hmem h
  | refPendOnoff | cmdCalStart | cmdResetLast | rxReady => exact absurd (by decide) h
  | _ => rfl

/-- Every address but the writable ones ignores a write, reserved addresses among them (10_state.md R57). -/
theorem regWrite_of_not_writable {a : Byte} (h : a.toNat ∉ writableAddresses) (v : W32) (s : State) :
    regWrite a v s = s := by
  cases hr : regAt a with
  | none => exact regWrite_of_reserved hr v s
  | some r =>
    have haddr := addr_of_regAt hr
    rw [regWrite_of_regAt hr, writeReg_of_not_writable (haddr ▸ h)]

/-- RX_READY is cleared by a 0 (47_host_interface.md R362). -/
theorem writeRxReady_eq (v : W32) (s : State) :
    writeRxReady v s = if v.getLsbD 0 = false then { s with rxc := { s.rxc with ready := false } } else s := by
  unfold writeRxReady
  cases v.getLsbD 0 <;> rfl

/-- CMD_CAL_START starts a session from STOP only (47_host_interface.md R363). -/
theorem writeCalStart_eq (v : W32) (s : State) :
    writeCalStart v s =
      if v.getLsbD 0 = true ∧ s.cal.phase = .stop then { s with cal := { s.cal with phase := .start, pause := 0 } }
      else s :=
  if_congr (by rw [Bool.and_eq_true, decide_eq_true_eq]) rfl rfl

/-- Settles O5: a taken WR is a write to the register at its address; of the registers only the three commands have a
condition. -/
theorem wrWritesItsRegister : Obligations.WrWritesItsRegister := by
  refine fun v s => ⟨fun hidle hcallback a => exec_wr_of_not_hostMayAct hidle hcallback a v, fun hpos => ?_⟩
  have field (a : Byte) : exec (.wr a v) s = .next (regWrite a v s) := exec_wr_of_hostMayAct hpos a v
  exact ⟨
    -- the modes, the limits and the stiffness
    field _, field _, field _, field _, field _, field _, field _, field _, field _, field _,
    -- the gains
    field _, field _, field _, field _, field _, field _, field _, field _, field _, field _, field _, field _,
    -- the encoders
    field _, field _, field _, field _, field _, field _,
    -- the pending references
    field _, field _, field _,
    -- the commands, and every other address
    (field _).trans (congrArg _ (writeRxReady_eq v s)), (field _).trans (congrArg _ (writeCalStart_eq v s)), field _,
    fun a ha => (field a).trans (congrArg _ (regWrite_of_not_writable ha v s))⟩

/-! ### STEP and the three holds -/

/-- The micro-operation of a position is its SEQ row (30_encoding.md R140). -/
theorem exec_seqInstr (c : SeqCode) (s : State) : exec c.instr s = microOp c s := by
  cases c <;> rfl

/-- The motor step gives a next state for the two motors (40_scheduler.md R177). -/
theorem onMotor_next (f : Fin 2 → State → State) {s : State} (h : s.seq.idx ≠ 2) : ∃ t, onMotor f s = .next t := by
  obtain ⟨m, hm⟩ := motorOf_eq_some h
  exact ⟨f m s, by rw [onMotor, hm]⟩

/-- A drain step gives a next state, but for a payload byte with no place in the buffer (20_memory.md R104). -/
theorem drainStep_next {s : State}
    (h : s.framer.fstate = .receive → s.ports.rxFifo ≠ [] → s.drainFrames.toNat < s.cfg.framesPerDrain →
      s.framer.fidx.toNat < maxFrame) :
    ∃ t, drainStep s = .next t := by
  by_cases hl : s.drainFrames.toNat < s.cfg.framesPerDrain
  · cases hfifo : s.ports.rxFifo with
    | nil => exact ⟨_, drainStep_end (.inl hfifo)⟩
    | cons b rest =>
      rw [drainStep_byte hfifo hl]
      exact framerByteIn_next _ b _ fun hstate => h hstate (by simp [hfifo]) hl
  · exact ⟨_, drainStep_end (.inr (Nat.not_lt.1 hl))⟩

/-- The micro-operations complete, but for the two faults of the model (notes/assumptions/7.md, 8.md). -/
theorem microOp_next {c : SeqCode} {s : State} (hmotor : c = .motor → s.seq.idx ≠ 2)
    (hdrain : c = .drain → s.framer.fstate = .receive → s.ports.rxFifo ≠ [] →
      s.drainFrames.toNat < s.cfg.framesPerDrain → s.framer.fidx.toNat < maxFrame) :
    ∃ t, microOp c s = .next t := by
  cases c with
  | motor => exact onMotor_next (fun m t => (motorControl m t).gotoCode .pollD) (hmotor rfl)
  | drain => exact drainStep_next (hdrain rfl)
  | _ => exact ⟨_, rfl⟩

/-- STEP changes nothing at a hold (60_exceptions.md R395). -/
theorem exec_step_of_atHold {s : State} (h : atHold s = true) : exec .step s = .next s := by
  rcases (atHold_iff s).1 h with ⟨hcode, htick⟩ | ⟨hcode, hadc, hrx⟩ | hcode
  · rw [exec_step_of_code hcode, microOp, execSeqIdle, htick]
    rfl
  · have hflag : ¬ (s.rxEnabled && s.rxFlag) = true := by rwa [Bool.and_eq_true]
    rw [exec_step_of_code hcode, microOp, execSeqAdcWait, hadc, if_neg hflag]
    rfl
  · rw [exec_step_of_code hcode, microOp, execSeqCallback]

/-- Settles O10: STEP is the row of its position, which completes, and it changes nothing at a hold. -/
theorem stepPerformsTheMicroOperation : Obligations.StepPerformsTheMicroOperation :=
  fun s => ⟨(exec_seqInstr s.seq.code s).symm,
    fun hmotor hdrain => microOp_next hmotor fun hcode hstate hfifo _ => hdrain hcode hstate hfifo,
    fun hhold => exec_step_of_atHold ((atHold_iff s).2 hhold)⟩

/-! ### The hold of a callback -/

/-- Settles O9: CALLBACK is one of the three holds, and the position decides what HDONE does. -/
theorem callbackHoldsUntilHdone : Obligations.CallbackHoldsUntilHdone :=
  fun s => ⟨rfl,
    fun hcode => ⟨exec_step_of_atHold ((atHold_iff s).2 (.inr (.inr hcode))), congrArg Host.Outcome.next (if_pos hcode)⟩,
    fun hcode => congrArg Host.Outcome.next (if_neg hcode)⟩

/-- `t` has of `s` what a callback holds: the position, what the control steps wrote, and every received byte
(47_host_interface.md R366). -/
structure State.KeepsHold (s t : State) : Prop where
  seq      : t.seq = s.seq
  cbKind   : t.cbKind = s.cbKind
  drainRet : t.drainRet = s.drainRet
  framer   : t.framer = s.framer
  rxFifo   : s.ports.rxFifo <+: t.ports.rxFifo
  pid      : t.pid = s.pid
  drive    : t.drive = s.drive
  meas     : t.meas = s.meas
  refC     : t.refC = s.refC

/-- A state with the held fields of `s` in their places is a state that keeps the hold. -/
theorem State.KeepsHold.of_eq {s t : State}
    (h : t = { t with
          seq := s.seq
          cbKind := s.cbKind
          drainRet := s.drainRet
          framer := s.framer
          ports := { t.ports with rxFifo := s.ports.rxFifo }
          pid := s.pid
          drive := s.drive
          meas := s.meas
          refC := s.refC }) : s.KeepsHold t := by
  constructor <;> rw [h]

theorem State.KeepsHold.refl (s : State) : s.KeepsHold s := .of_eq rfl

/-- A host write reaches nothing a callback holds (10_state.md R56). -/
theorem writeReg_keepsHold (r : Reg) (v : W32) (s : State) : s.KeepsHold (writeReg r v s) := by
  cases r with
  | cmdCalStart | cmdResetLast | rxReady =>
    simp only [writeReg, writeCalStart, writeResetLast, writeRxReady]
    split <;> exact .of_eq rfl
  | _ => exact .of_eq rfl

theorem regWrite_keepsHold (a : Byte) (v : W32) (s : State) : s.KeepsHold (regWrite a v s) := by
  cases h : regAt a with
  | none =>
    rw [regWrite_of_reserved h]
    exact .refl s
  | some r =>
    rw [regWrite_of_regAt h]
    exact writeReg_keepsHold r v s

/-- In a callback every transaction but RESET and HDONE keeps the hold (47_host_interface.md R360, R366). -/
theorem exec_txn_keepsHold {op ai : Byte} {data : W32} {i : Instr} {s t : State} (hrow : TxnRow op ai data i)
    (hcode : s.seq.code = .callback) (hreset : i ≠ .reset) (hhdone : i ≠ .hdone) (h : exec i s = .next t) :
    s.KeepsHold t := by
  cases hrow with
  | reset => exact absurd rfl hreset
  | hdone => exact absurd rfl hhdone
  | timer | adcdone =>
    cases h
    exact .of_eq rfl
  | rxb b =>
    cases h
    rw [fifoPush_eq]
    split
    · exact ⟨rfl, rfl, rfl, rfl, List.prefix_append _ _, rfl, rfl, rfl, rfl⟩
    · exact .of_eq rfl
  | enc k w =>
    simp only [exec, execEnc] at h
    split at h <;> cases h <;> exact .of_eq rfl
  | adc c v =>
    simp only [exec, execAdc] at h
    split at h <;> cases h <;> exact .of_eq rfl
  | wr a v =>
    rw [exec_wr_of_hostMayAct (.inr hcode)] at h
    cases h
    exact regWrite_keepsHold _ _ s
  | rd a =>
    cases h
    split <;> exact .of_eq rfl
  | step =>
    rw [exec_step_of_atHold ((atHold_iff s).2 (.inr (.inr hcode)))] at h
    cases h
    exact .refl s

theorem step_keepsHold {s t : State} (hcode : s.seq.code = .callback) (h : step s = .next t)
    (hword : ∀ w rest, s.txns = w :: rest → decode (.txn w) ≠ .ok .reset ∧ decode (.txn w) ≠ .ok .hdone) :
    s.KeepsHold t := by
  rcases step_cases h with rfl | ⟨w, rest, htxns, rfl | ⟨i, hdecode, hexec⟩⟩
  · exact .refl t
  · exact .of_eq rfl
  · obtain ⟨hreset, hhdone⟩ := hword w rest htxns
    obtain ⟨-, hrow⟩ := txnRow_of_decodeTxn hdecode
    have hkeep : State.KeepsHold { s with txns := rest } t :=
      exec_txn_keepsHold hrow hcode (fun hi => hreset (hi ▸ hdecode)) (fun hi => hhdone (hi ▸ hdecode)) hexec
    exact { hkeep with }

/-- Settles O50: the fields of the hold every step but that of RESET and HDONE keeps (`step_keepsHold`). -/
theorem onlyHdoneOrResetLeavesACallback : Obligations.OnlyHdoneOrResetLeavesACallback := by
  intro s t hcode h hword
  obtain ⟨hseq, hkind, hret, hframer, hfifo, hpid, hdrive, hmeas, hrefC⟩ := step_keepsHold hcode h hword
  exact ⟨hseq, hkind, hret, hframer, hfifo, hpid, hdrive, hmeas, hrefC⟩

/-! ### What a step does with the next word -/

theorem step_of_invalid {s : State} (h : s.cfg.valid = false) : step s = .refused .badParameters := by
  unfold step fetch
  rw [if_neg (Bool.not_eq_true _ ▸ h)]

theorem step_of_txns_nil {s : State} (hvalid : s.cfg.valid = true) (htxns : s.txns = []) : step s = .next s := by
  unfold step fetch
  rw [if_pos hvalid, htxns]

/-- Settles O40: the fetch consumes the word and presents its instruction. -/
theorem stepRunsTheDecodedInstruction : Obligations.StepRunsTheDecodedInstruction := by
  intro s w rest i hvalid htxns hdecode
  unfold step fetch
  rw [if_pos hvalid, htxns]
  simp only [hdecode]

/-- A word that is not well formed is consumed without effect (47_host_interface.md R373, 30_encoding.md R134). -/
theorem step_of_not_wellFormed {s : State} {w : TxnWord} {rest : List TxnWord} (hvalid : s.cfg.valid = true)
    (htxns : s.txns = w :: rest) (hw : ¬ TxnWellFormed w) : step s = .next { s with txns := rest } := by
  cases hdecode : decode (.txn w) with
  | ok i => exact absurd ((transactionDecodesIffWellFormed w).1 ⟨i, hdecode⟩) hw
  | error e =>
    unfold step fetch
    rw [if_pos hvalid, htxns]
    simp only [hdecode]

/-- A valid parameter set breaks neither a constraint of 00_scope.md R11 nor a range of notes/assumptions/9.md. -/
theorem valid_iff (c : Config) : c.valid = true ↔ ¬ BreaksR11 c ∧ ¬ BreaksRanges c := by
  rw [Config.valid, Bool.and_eq_true, constraintsOk_iff]
  refine and_congr_right fun hr11 => rangesOk_iff c ?_
  by_contra hmax
  have hbreak : 2 ^ 15 ≤ c.pwmMax := not_lt.1 hmax
  exact hr11 (by unfold BreaksR11; tauto)

/-- Valid parameters are never refused: no instruction is (`exec_ne_refused`). -/
theorem step_ne_refused {s : State} (hvalid : s.cfg.valid = true) (r : Refusal) : step s ≠ .refused r := by
  unfold step
  cases hfetch : fetch s with
  | badParameters =>
    rw [fetch, if_pos hvalid] at hfetch
    split at hfetch
    · cases hfetch
    · split at hfetch <;> cases hfetch
  | nothing | ignored t => nofun
  | run i t => exact exec_ne_refused i t r

/-- Settles O41: the outcomes of the fetch without an instruction, the check of the parameters read by `valid_iff`. -/
theorem stepWithoutAnInstruction : Obligations.StepWithoutAnInstruction := by
  intro s
  refine ⟨step_of_txns_nil, fun w rest => step_of_not_wellFormed, step_of_invalid,
    fun hr11 => step_of_invalid ?_, fun hranges => step_of_invalid ?_, fun hr11 hranges => ?_⟩
  · rw [← Bool.not_eq_true, valid_iff]
    exact fun hvalid => hvalid.1 hr11
  · rw [← Bool.not_eq_true, valid_iff]
    exact fun hvalid => hvalid.2 hranges
  · have hvalid : s.cfg.valid = true := (valid_iff s.cfg).2 ⟨hr11, hranges⟩
    exact ⟨hvalid, step_ne_refused hvalid⟩

end Sys2Proof.Machine

/-! Settling the statements of the families 60_exceptions.md and 70_reset_and_hazards.md: RESET (70_reset_and_hazards.md R410),
the completion of every instruction (60_exceptions.md R380), and the invariant, which the reset state meets and every step
keeps. -/

namespace Sys2Proof

/-- The bounds a valid parameter set gives the registers that hold a count or a saturated value (00_scope.md R11,
notes/assumptions/9.md). -/
structure Config.Bounds (c : Config) : Prop where
  calDiv     : 0 < c.calDiv
  pwmMax     : 0 < c.pwmMax ∧ c.pwmMax < 32768
  posIntSat  : 0 < c.posIntSat ∧ c.posIntSat ≤ 2147483647
  currIntSat : 0 < c.currIntSat ∧ c.currIntSat ≤ 2147483647
  derate     : derateTableOk c.derateTable = true

theorem bounds_of_valid {c : Config} (h : c.valid = true) : c.Bounds := by
  simp only [Config.valid, Config.constraintsOk, Config.rangesOk, Bool.and_eq_true, decide_eq_true_eq, isInt32_iff] at h
  constructor <;> tauto

@[simp] theorem Two.get_mk_self {α : Type} (x : α) (m : Fin 2) : (⟨x, x⟩ : Two α).get m = x := by
  fin_cases m <;> rfl

/-- The derating limit is at most full duty (45_analog_derating.md R315). -/
theorem derate_le {c : Config} (h : derateTableOk c.derateTable = true) (v : Int) : (derate c v).toNat ≤ 100 := by
  unfold derate
  split
  · decide
  · split
    · decide
    · rw [List.getD_eq_getElem?_getD]
      cases hentry : c.derateTable[(tdiv (v - c.vLo) c.vStep).toNat]? with
      | none => decide
      | some b => exact derateTableOk_le _ h b (List.mem_of_getElem? hentry)

end Sys2Proof

namespace Sys2Proof.Machine

open Sys2Proof

/-! ### RESET -/

/-- The state a RESET leaves of `s` (70_reset_and_hazards.md R410). -/
def State.afterReset (s : State) : State :=
  { State.reset with mem := s.cfg.memAtReset, trace := s.trace, txns := s.txns, cfg := s.cfg }

theorem exec_reset (s : State) : exec .reset s = .next s.afterReset := rfl

/-- Settles O1: the registers of `afterReset` are those of the reset state, row by row of the table. -/
theorem resetSetsEveryPieceOfState : Obligations.ResetSetsEveryPieceOfState := by
  intro s
  refine ⟨s.afterReset, exec_reset s, ?_⟩
  have hrefs : ∀ r ∈ [Ref.zero, Ref.zero, Ref.zero], r.pos = ⟨0, 0⟩ ∧ r.onoff = 0 := by decide
  have hmeas : ∀ q ∈ [Meas.zero, Meas.zero],
      q.pos = ⟨0, 0, 0⟩ ∧ q.turns = ⟨0, 0, 0⟩ ∧ q.curr = ⟨0, 0⟩ ∧ q.volt = 0 := by decide
  have hbuf (a : Nat) : memRead [] a = 0 := rfl
  exact ⟨
    -- the sequencer
    rfl, rfl, rfl, rfl, rfl, rfl,
    -- the references, the measurements and the configuration
    hrefs, hmeas, rfl,
    -- the framer, the committed buffer and the reception flags
    rfl, rfl, rfl, rfl, rfl, hbuf, rfl, hbuf, rfl, rfl, rfl, rfl,
    -- the accumulators, the encoder, the filters, the drive registers and the session
    rfl, rfl, rfl, rfl, rfl, rfl, rfl,
    -- the ports
    rfl, rfl, rfl, rfl, rfl, rfl,
    -- what RESET keeps
    rfl, rfl, rfl⟩

/-- Settles O42: every register of the reset state is at the start of its range, and its parameters are valid. -/
theorem resetMeetsTheInvariant : Obligations.ResetMeetsTheInvariant where
  params := by decide
  motorIdx := by decide
  drainRet := by decide
  draining := by decide
  callback := by decide
  frames := Nat.zero_le _
  receiving := nofun
  unloading := nofun
  fbuf := ⟨rfl, rfl⟩
  rxcBuf := ⟨rfl, rfl⟩
  rxcLen := Nat.zero_le _
  fifo := Nat.zero_le _
  calDiv := by decide
  noise := by decide
  pwmLimit := Nat.zero_le _
  posInt := by decide
  currInt := by decide
  pwmMag := by decide
  pwmSign := by decide
  flowctl := rfl
  session := by decide

/-- A RESET meets the invariant under every valid parameter set: only the bounds are other than in the reset state. -/
theorem legal_afterReset {s : State} (h : s.cfg.valid = true) : Legal s.afterReset :=
  have hbounds := bounds_of_valid h
  have haccumulator {sat : Int} (hsat : 0 < sat) (m : Fin 2) :
      -sat ≤ ((⟨0, 0⟩ : Two W32).get m).toInt ∧ ((⟨0, 0⟩ : Two W32).get m).toInt ≤ sat := by
    have hzero : (0 : W32).toInt = 0 := rfl
    rw [Two.get_mk_self, hzero]
    omega
  have hmag (m : Fin 2) : (((⟨0, 0⟩ : Two W16).get m).toNat : Int) ≤ s.cfg.pwmMax := by
    rw [Two.get_mk_self]
    exact hbounds.pwmMax.1.le
  { resetMeetsTheInvariant with
    params := h
    frames := Nat.zero_le _
    fifo := Nat.zero_le _
    calDiv := hbounds.calDiv
    posInt := haccumulator hbounds.posIntSat.1
    currInt := haccumulator hbounds.currIntSat.1
    pwmMag := hmag }

/-! ### The completion of every instruction -/

/-- A FRAMER row gives a next state, but for a payload byte with no place in the buffer (20_memory.md R104). -/
theorem framerInstr_next {f : FramerCode} {s : State}
    (h : f = .receive → s.ports.rxFifo ≠ [] → s.framer.fidx.toNat < maxFrame) : ∃ t, framerInstr f s = .next t := by
  cases hfifo : s.ports.rxFifo with
  | nil => exact ⟨s, by rw [framerInstr, fifoPop_nil hfifo]⟩
  | cons b rest =>
    rw [framerInstr_byte hfifo]
    exact framerByteIn_next _ b _ fun hf => h hf (by simp [hfifo])

theorem execEnc_next (k : Byte) (w : W32) (s : State) : ∃ t, execEnc k w s = .next t := by
  unfold execEnc
  split <;> exact ⟨_, rfl⟩

theorem execAdc_next (c : Byte) (v : W16) (s : State) : ∃ t, execAdc c v s = .next t := by
  unfold execAdc
  split <;> exact ⟨_, rfl⟩

/-- Settles O44: STEP and the SEQ rows complete by their micro-operation, the FRAMER rows by their byte step, the MODE rows by
their motor step, and the others have one outcome. -/
theorem noInstructionRaisesAnException : Obligations.NoInstructionRaisesAnException := by
  intro i s hmotor hbyte
  cases i with
  | step =>
    exact microOp_next (fun hc => hmotor (.inr ⟨rfl, hc⟩))
      fun hc hf hne hl => hbyte hne (.inr ⟨.inr ⟨rfl, hc⟩, hf, hl⟩)
  | seqMotor => exact microOp_next (c := .motor) (fun _ => hmotor (.inl (by simp))) nofun
  | seqDrain => exact drainStep_next fun hf hne hl => hbyte hne (.inr ⟨.inl rfl, hf, hl⟩)
  | framerReceive => exact framerInstr_next fun _ hne => hbyte hne (.inl rfl)
  | framerWaitStart | framerWaitId | framerWaitLength | framerUnload => exact framerInstr_next nofun
  | modePosition | modePwm | modeCurrent | modePosCurr | modeDeflection | modeDeflCurr =>
    exact onMotor_next _ (hmotor (.inl (by simp)))
  | enc k w => exact execEnc_next k w s
  | adc c v => exact execAdc_next c v s
  | _ => exact ⟨_, rfl⟩

/-! ### The invariant: moves of the sequencer -/

section Moves

variable {s : State} {p : SeqPos}

/-- A move inside the tick: from a position that is no callback to one that is neither a drain nor a callback. -/
theorem Legal.goto (h : Legal s) (hfree : s.seq.code ≠ .callback) (hdrain : p.code ≠ .drain) (hcallback : p.code ≠ .callback)
    (hmotor : p.code = .motor ∨ p.code = .pollD → p.idx ≠ 2) : Legal (s.goto p) :=
  have hhold (hc : p.code = .drain ∨ p.code = .callback) : False := hc.elim hdrain hcallback
  { h with
    motorIdx := hmotor
    drainRet := fun hc => (hhold hc).elim
    draining := fun hc => (hhold hc).elim
    callback := iff_of_false hcallback fun hkind => hfree (h.callback.2 hkind) }

/-- A move inside the tick with the index kept, after a body `u` that leaves the position of `s`. -/
theorem Legal.gotoCode {u : State} {c d : SeqCode} (h : Legal u) (hseq : u.seq = s.seq) (hc : s.seq.code = c)
    (hmotor : d = .motor ∨ d = .pollD → s.seq.idx ≠ 2 := by simp) (hfree : c ≠ .callback := by decide)
    (hdrain : d ≠ .drain := by decide) (hcallback : d ≠ .callback := by decide) : Legal (u.gotoCode d) := by
  rw [← hseq] at hc hmotor
  exact h.goto (p := ⟨d, u.seq.idx⟩) (hc ▸ hfree) hdrain hcallback hmotor

/-- A return to a continuation (41_framer.md R217). -/
theorem Legal.gotoContinuation (h : Legal s) (hfree : s.seq.code ≠ .callback) (hp : p ∈ drainReturns) : Legal (s.goto p) := by
  obtain ⟨hcallback, hdrain, -, hmotor⟩ := drainReturns_spec hp
  exact h.goto hfree hdrain hcallback hmotor

/-- A drain entry with reception enabled saves its continuation (41_framer.md R214). -/
theorem Legal.drained (h : Legal s) (hfree : s.seq.code ≠ .callback) (hp : p ∈ drainReturns) (hen : s.rxEnabled = true) :
    Legal { s with rxFlag := false, drainFrames := 0, drainRet := p, seq := { s.seq with code := .drain } } :=
  { h with
    motorIdx := by simp
    drainRet := fun _ => hp
    draining := fun _ => hen
    callback := iff_of_false nofun fun hkind => hfree (h.callback.2 hkind)
    frames := Nat.zero_le _ }

theorem Legal.enterDrain (h : Legal s) (hfree : s.seq.code ≠ .callback) (hp : p ∈ drainReturns) : Legal (enterDrain p s) := by
  rw [enterDrain_eq]
  split
  · next hen => exact h.drained hfree hp hen
  · exact h.gotoContinuation hfree hp

theorem Legal.poll (h : Legal s) (hfree : s.seq.code ≠ .callback) (hp : p ∈ drainReturns) : Legal (poll p s) := by
  rw [poll_eq]
  split
  · next hen => exact h.drained hfree hp hen.1
  · exact h.gotoContinuation hfree hp

/-- A drain hands over to the host (60_exceptions.md R387). -/
theorem Legal.enterCallback (h : Legal s) (hc : s.seq.code = .drain) {kind : CbKind} (hkind : kind ≠ .none) (e : Event) :
    Legal (enterCallback kind e s) :=
  { h with
    motorIdx := by simp [enterCallback_eq]
    drainRet := fun _ => h.drainRet (.inl hc)
    draining := fun _ => h.draining (.inl hc)
    callback := iff_of_true rfl hkind }

/-- The return of the host to the drain (60_exceptions.md R388). -/
theorem Legal.leaveCallback (h : Legal s) (hc : s.seq.code = .callback) : Legal (leaveCallback s) :=
  { h with
    motorIdx := by simp [leaveCallback_eq]
    drainRet := fun _ => h.drainRet (.inr hc)
    draining := fun _ => h.draining (.inr hc)
    callback := iff_of_false nofun (not_not_intro rfl) }

end Moves

/-! ### The invariant: the encoder and the analog front-end -/

/-- A noise counter stays below its limit: the sample that would reach it is accepted (43_encoder.md R254). -/
theorem unwrapSample_noise {s : State} (h : ∀ j, (s.enc.noise.get j).toNat < noiseLimit) (k : Fin 3) (raw : W16) (j : Fin 3) :
    ((unwrapSample k raw s).enc.noise.get j).toNat < noiseLimit := by
  have haccept (t : W16) : ((acceptSample k raw t s).enc.noise.get j).toNat < noiseLimit := by
    rw [acceptSample_eq, Three.get_set]
    split
    · decide
    · exact h j
  rw [unwrapSample_eq (h k)]
  extract_lets delta t
  split
  · exact haccept _
  · split
    · exact haccept _
    · split
      · next hcount =>
        simp only [Three.get_set]
        split
        · rw [noise_succ_toNat (h k)]
          exact hcount.2
        · exact h j
      · exact haccept _

theorem Legal.encoderUpdate {s : State} (h : Legal s) (k : Fin 3) : Legal (encoderUpdate k s) := by
  have hnoise (j : Fin 3) : ((Machine.encoderUpdate k s).enc.noise.get j).toNat < noiseLimit := by
    simp only [Machine.encoderUpdate, clearLast_eq]
    split
    · refine unwrapSample_noise ?_ _ _ j
      exact h.noise
    · exact h.noise j
  obtain ⟨e, m, hframe⟩ := encoderUpdate_frame k s
  rw [hframe] at hnoise ⊢
  exact { h with noise := hnoise }

theorem Legal.analogFrontEnd {s : State} (h : Legal s) : Legal (analogFrontEnd s) := by
  by_cases hpos : 0 < voltOf s.cfg (s.ports.adcRaw.get 0)
  · rw [analogFrontEnd_of_pos hpos]
    exact { h with pwmLimit := derate_le (bounds_of_valid h.params).derate _ }
  · rw [analogFrontEnd_of_nonpos hpos]
    exact { h with }

/-! ### The invariant: the motors -/

/-- Anti-windup: the stored integral is inside its limits (44_motor_control.md R274). -/
theorem PidEvaluates.integral_range {c : Config} {g : Gains} {sat eIn u : Int} {i0 e0 i1 e1 : W32}
    (h : PidEvaluates c g sat i0 e0 eIn u i1 e1) (hsat : 0 < sat ∧ sat ≤ 2147483647) :
    -sat ≤ i1.toInt ∧ i1.toInt ≤ sat := by
  obtain ⟨-, rfl, -⟩ := h
  generalize i0.toInt + (BitVec.ofInt 32 eIn).toInt = x
  have hrange : -sat ≤ max (-sat) (min x sat) ∧ max (-sat) (min x sat) ≤ sat := clamp_range (by omega)
  have hwrap : (BitVec.ofInt 32 (max (-sat) (min x sat))).toInt = max (-sat) (min x sat) :=
    wrap32_of_range (by omega) (by omega)
  rwa [hwrap]

theorem Legal.pid {s : State} (h : Legal s) (l : Loop) (m : Fin 2) (g : Gains) (e : Int) : Legal (pid l m g e s).2 := by
  have hbounds := bounds_of_valid h.params
  cases l with
  | posl =>
    obtain ⟨u, i, p, heq, heval⟩ := pid_posl_spec m g e s
    rw [heq]
    refine { h with posInt := fun j => ?_ }
    simp only [Two.get_set]
    split
    · exact heval.integral_range hbounds.posIntSat
    · exact h.posInt j
  | currl =>
    obtain ⟨u, i, p, heq, heval⟩ := pid_currl_spec m g e s
    rw [heq]
    refine { h with currInt := fun j => ?_ }
    simp only [Two.get_set]
    split
    · exact heval.integral_range hbounds.currIntSat
    · exact h.currInt j

/-- A mode is at most one evaluation of each loop (44_motor_control.md R280 to R286). -/
theorem Legal.modeCommand {s : State} (h : Legal s) (c : Option ModeCode) (m : Fin 2) : Legal (modeCommand c m s).2 := by
  cases c with
  | none => exact h
  | some c =>
    cases c with
    | pwm => exact h
    | position | deflection => exact h.pid .posl m _ _
    | current => exact h.pid .currl m _ _
    | posCurr | deflCurr => exact (h.pid .posl m _ _).pid .currl m _ _

/-- The driven value is inside the PWM range: clamped to it, and derated by at most full duty (44_motor_control.md R293). -/
theorem outputValue_range {c : Config} {limit : Byte} (hmax : 0 < c.pwmMax) (hlimit : limit.toNat ≤ 100) (isPwm : Bool)
    (u : Int) : -c.pwmMax ≤ outputValue isPwm c limit u ∧ outputValue isPwm c limit u ≤ c.pwmMax := by
  have hclamp : -c.pwmMax ≤ clamp u (-c.pwmMax) c.pwmMax ∧ clamp u (-c.pwmMax) c.pwmMax ≤ c.pwmMax :=
    clamp_range (by omega)
  simp only [outputValue, tdiv]
  generalize clamp u (-c.pwmMax) c.pwmMax = v at hclamp
  obtain ⟨hlow, hhigh⟩ := hclamp
  split
  · exact ⟨hlow, hhigh⟩
  · have hfull : (0 : Int) ≤ limit.toNat ∧ (limit.toNat : Int) ≤ 100 := by omega
    have hupper : v * limit.toNat ≤ c.pwmMax * 100 := by nlinarith
    have hlower : -(c.pwmMax * 100) ≤ v * limit.toNat := by nlinarith
    have habs : ((v * limit.toNat).tdiv 100).natAbs = (v * limit.toNat).natAbs / 100 := Int.natAbs_tdiv _ _
    omega

/-- The magnitude of a value inside the PWM range is stored whole (44_motor_control.md R294). -/
theorem magnitude_le {w lim : Int} (hlow : -lim ≤ w) (hhigh : w ≤ lim) (hlim : lim < 32768) :
    ((BitVec.ofInt 16 (iabs w)).toNat : Int) ≤ lim := by
  have habs : 0 ≤ iabs w ∧ iabs w ≤ lim := by
    unfold iabs
    split <;> omega
  rw [BitVec.toNat_ofInt, Int.emod_eq_of_lt habs.1 (by norm_num; omega)]
  omega

theorem Legal.outputStage {s : State} (h : Legal s) (m : Fin 2) (u : Int) (isPwm : Bool) :
    Legal (outputStage m u isPwm s) := by
  have hmax := (bounds_of_valid h.params).pwmMax
  unfold Machine.outputStage
  obtain ⟨hlow, hhigh⟩ := outputValue_range hmax.1 h.pwmLimit isPwm u
  generalize outputValue isPwm s.cfg s.drive.pwmLimit u = w at hlow hhigh
  refine { h with pwmMag := fun j => ?_, pwmSign := fun j => ?_ }
  · simp only [split, State.emit_drive, State.emit_cfg, Two.get_set]
    split
    · exact magnitude_le hlow hhigh hmax.2
    · exact h.pwmMag j
  · simp only [split, State.emit_drive, Two.get_set]
    split
    · by_cases hneg : w < 0 <;> simp [hneg]
    · exact h.pwmSign j

theorem Legal.motorControl {s : State} (h : Legal s) (m : Fin 2) : Legal (motorControl m s) :=
  (h.modeCommand _ m).outputStage m _ _

theorem Legal.inputOverride {s : State} (h : Legal s) : Legal (inputOverride s) := by
  rw [inputOverride_eq]
  split
  · exact { h with }
  · exact h

/-! ### The invariant: calibration -/

/-- Start suspends reception, Continue2 resumes it, and every phase between them is a suspended one (70_reset_and_hazards.md
R428). -/
theorem calPhaseBody_session {s : State} (h : s.rxEnabled = false ↔ s.cal.phase ∈ suspendedPhases) :
    (calPhaseBody s.cal.phase s).rxEnabled = false ↔ (calPhaseBody s.cal.phase s).cal.phase ∈ suspendedPhases := by
  have hpause1 : CalphCode.pause1 ∈ suspendedPhases := by decide
  have hcontinue1 : CalphCode.continue1 ∈ suspendedPhases := by decide
  have hpause2 : CalphCode.pause2 ∈ suspendedPhases := by decide
  have hcontinue2 : CalphCode.continue2 ∈ suspendedPhases := by decide
  have hstop : CalphCode.stop ∉ suspendedPhases := by decide
  cases hp : s.cal.phase with
  | stop => exact h
  | start => exact iff_of_true rfl hpause1
  | pause1 =>
    have hoff : s.rxEnabled = false := h.2 (hp ▸ hpause1)
    simp only [calPhaseBody, calPause1]
    split
    · exact iff_of_true hoff hcontinue1
    · exact h
  | continue1 =>
    have hoff : s.rxEnabled = false := h.2 (hp ▸ hcontinue1)
    simp only [calPhaseBody, calContinue1]
    rcases calCheck_cases (calSweep s) with ⟨-, heq⟩ | ⟨-, -, heq⟩ | ⟨-, -, heq⟩ <;> rw [heq]
    · exact iff_of_true hoff hpause2
    · exact iff_of_true hoff hpause2
    · exact h
  | pause2 =>
    have hoff : s.rxEnabled = false := h.2 (hp ▸ hpause2)
    simp only [calPhaseBody, calPause2]
    split
    · exact iff_of_true hoff hcontinue2
    · exact h
  | continue2 => exact iff_of_false nofun hstop

/-- An invocation in CAL, which is no drain, may suspend reception (46_calibration.md R331). -/
theorem Legal.calPhaseBody {s : State} (h : Legal s) (hc : s.seq.code = .cal) : Legal (calPhaseBody s.cal.phase s) := by
  have hsession := calPhaseBody_session h.session
  rw [calPhaseBody_frame] at hsession ⊢
  exact { h with draining := by simp [hc], session := hsession }

theorem Legal.calTick {s : State} (h : Legal s) (hc : s.seq.code = .cal) : Legal (calTick s) := by
  have hdiv := h.calDiv
  rcases calTick_cases s with ⟨-, heq⟩ | ⟨hne, heq⟩ <;> rw [heq]
  · have hzero : Legal { s with calDiv := 0 } := { h with calDiv := (bounds_of_valid h.params).calDiv }
    exact hzero.calPhaseBody hc
  · have hlt : s.calDiv + 1 < s.cfg.calDiv := by omega
    exact { h with calDiv := hlt }

/-! ### The invariant: the drain -/

/-- Below the limit the frame count has its place (10_state.md R35). -/
theorem frames_succ_le {n : BitVec 3} {lim : Nat} (h : n.toNat < lim) : (n + 1).toNat ≤ lim := by
  rw [BitVec.toNat_add]
  exact (Nat.mod_le _ _).trans h

section Drain

variable {s : State} (h : Legal s)
include h

theorem Legal.waitStartByte (hc : s.seq.code = .drain) (b : Byte) : Legal (waitStartByte b s) := by
  unfold Machine.waitStartByte
  extract_lets w0 w1 f t
  have ht : Legal t := { h with }
  split
  · exact { h with receiving := nofun, unloading := nofun }
  · split
    · exact ht.enterCallback (kind := .info) hc nofun _
    · exact ht

theorem Legal.waitIdByte (b : Byte) : Legal (waitIdByte b s) := { h with receiving := nofun, unloading := nofun }

/-- A valid length starts Receive below it, or Unload with a count (41_framer.md R204, R205). -/
theorem Legal.waitLengthByte (b : Byte) : Legal (waitLengthByte b s) := by
  unfold Machine.waitLengthByte
  split
  · exact { h with receiving := nofun, unloading := nofun }
  · next hlen =>
    have hzero : (0 : Byte).toNat = 0 := rfl
    have hvalid : (0 : Byte).toNat < b.toNat ∧ b.toNat ≤ maxFrame := by omega
    split
    · exact { h with receiving := fun _ => hvalid, unloading := nofun }
    · exact { h with receiving := nofun, unloading := fun _ => hvalid.1 }

/-- A frame of at most MAX_FRAME bytes is committed, and the core is in a callback (41_framer.md R207). -/
theorem Legal.frameComplete (hc : s.seq.code = .drain) (hl : s.drainFrames.toNat < s.cfg.framesPerDrain) {f : FramerRegs}
    (hfbuf : memWf f.fbuf = true ∧ memWithin maxFrame f.fbuf = true) (hlen : f.flen.toNat ≤ maxFrame) :
    Legal (frameComplete { s with framer := f }) := by
  obtain ⟨hwf, hwithin⟩ := h.rxcBuf
  have hcommitted : Legal { s with
      rxc := { buf := memCopy f.fbuf f.flen.toNat s.rxc.buf, len := f.flen, ready := true }
      framer := { f with fstate := .waitStart, fidx := 0, flen := 0 }
      drainFrames := s.drainFrames + 1 } :=
    { h with
      receiving := nofun
      unloading := nofun
      fbuf := hfbuf
      rxcBuf := ⟨memWf_memCopy hwf _ _, memWithin_memCopy hwithin hlen _⟩
      rxcLen := hlen
      frames := frames_succ_le hl }
  exact hcommitted.enterCallback (kind := .frame) hc nofun _

/-- A payload byte has its place: the index is below the length (41_framer.md R206). -/
theorem Legal.receiveByte (hc : s.seq.code = .drain) (hf : s.framer.fstate = .receive)
    (hl : s.drainFrames.toNat < s.cfg.framesPerDrain) (b : Byte) : ∃ t, receiveByte b s = .next t ∧ Legal t := by
  obtain ⟨hidx, hlen⟩ := h.receiving hf
  obtain ⟨hwf, hwithin⟩ := h.fbuf
  have hin : s.framer.fidx.toNat < maxFrame := hidx.trans_le hlen
  have hfbuf : memWf (s.framer.store b).fbuf = true ∧ memWithin maxFrame (s.framer.store b).fbuf = true :=
    ⟨memWf_memWrite hwf _ b, memWithin_memWrite hwithin hin b⟩
  by_cases hlast : s.framer.fidx + 1 = s.framer.flen
  · exact ⟨_, receiveByte_last hin hlast b, h.frameComplete hc hl hfbuf hlen⟩
  · have hmore := receiveByte_more hin hlast b
    exact ⟨_, hmore, { h with receiving := receiveByte_placed hf h.receiving hmore, fbuf := hfbuf }⟩

theorem Legal.unloadByte (hf : s.framer.fstate = .unload) (hl : s.drainFrames.toNat < s.cfg.framesPerDrain) :
    Legal (unloadByte s) := by
  have hcount := h.unloading hf
  by_cases hone : s.framer.unloadCnt.toNat = 1
  · rw [unloadByte_last hone]
    exact { h with receiving := nofun, unloading := nofun, frames := frames_succ_le hl, flowctl := rfl }
  · rw [unloadByte_more hone]
    have hleft : 1 ≤ (s.framer.unloadCnt - 1).toNat := by bv_omega
    exact { h with unloading := fun _ => hleft }

/-- A byte step below the frame limit (41_framer.md R200). -/
theorem Legal.framerByte (hc : s.seq.code = .drain) (hl : s.drainFrames.toNat < s.cfg.framesPerDrain) (b : Byte) :
    ∃ t, framerByteIn s.framer.fstate b s = .next t ∧ Legal t := by
  cases hf : s.framer.fstate with
  | waitStart => exact ⟨_, rfl, h.waitStartByte hc b⟩
  | waitId => exact ⟨_, rfl, h.waitIdByte b⟩
  | waitLength => exact ⟨_, rfl, h.waitLengthByte b⟩
  | receive => exact h.receiveByte hc hf hl b
  | unload => exact ⟨_, rfl, h.unloadByte hf hl⟩

/-- The drain takes a byte, or returns to its continuation (41_framer.md R216, R217). -/
theorem Legal.drainStep (hc : s.seq.code = .drain) : ∃ t, drainStep s = .next t ∧ Legal t := by
  have hend : Legal (s.goto s.drainRet) := h.gotoContinuation (by simp [hc]) (h.drainRet (.inl hc))
  by_cases hl : s.drainFrames.toNat < s.cfg.framesPerDrain
  · cases hfifo : s.ports.rxFifo with
    | nil => exact ⟨_, drainStep_end (.inl hfifo), hend⟩
    | cons b rest =>
      have hshorter : rest.length ≤ s.cfg.rxFifoDepth := by
        have hlen := h.fifo
        rw [hfifo, List.length_cons] at hlen
        omega
      have hpopped : Legal { s with ports := { s.ports with rxFifo := rest } } := { h with fifo := hshorter }
      rw [drainStep_byte hfifo hl]
      exact hpopped.framerByte hc hl b
  · exact ⟨_, drainStep_end (.inr (Nat.not_lt.1 hl)), hend⟩

end Drain

/-! ### The invariant: the micro-operations -/

/-- The micro-operation of the position completes and keeps the invariant: the body keeps it in place, and the move ends at a
position the invariant allows (40_scheduler.md R171 to R183). -/
theorem Legal.microOp {s : State} (h : Legal s) {c : SeqCode} (hc : s.seq.code = c) :
    ∃ t, microOp c s = .next t ∧ Legal t := by
  have hfree (hne : c ≠ .callback) : s.seq.code ≠ .callback := hc ▸ hne
  cases c with
  | idle =>
    refine ⟨_, rfl, ?_⟩
    split
    · have htaken : Legal (s.putTickPending false) := { h with }
      exact htaken.gotoCode rfl hc
    · exact h
  | adcStart =>
    have hstarted : Legal ((s.putAdcReady false).emit .adcStart) := { h with }
    exact ⟨_, rfl, hstarted.gotoCode rfl hc⟩
  | drainB => exact ⟨_, rfl, h.enterDrain (hfree (by decide)) (by decide)⟩
  | enc => exact ⟨_, rfl, (h.encoderUpdate _).gotoCode (encoderUpdate_seq _ s) hc⟩
  | pollC => exact ⟨_, rfl, h.poll (hfree (by decide)) (afterPollC_mem _)⟩
  | inputOvr =>
    have hseq := (keepsRun_inputOverride s).seq
    exact ⟨_, rfl, h.inputOverride.goto (hseq ▸ hfree (by decide)) (by decide) (by decide) (by decide)⟩
  | motor =>
    have hidx : s.seq.idx ≠ 2 := h.motorIdx (.inl hc)
    obtain ⟨m, hm⟩ := motorOf_eq_some hidx
    refine ⟨(Machine.motorControl m s).gotoCode .pollD, by simp only [Machine.microOp, execSeqMotor, onMotor, hm], ?_⟩
    exact (h.motorControl m).gotoCode (keepsRun_motorControl m s).seq hc fun _ => hidx
  | pollD => exact ⟨_, rfl, h.poll (hfree (by decide)) (afterPollD_mem _)⟩
  | adcWait =>
    refine ⟨_, rfl, ?_⟩
    split
    · exact h.gotoCode rfl hc
    · split
      · exact h.enterDrain (hfree (by decide)) (by decide)
      · exact h
  | afe => exact ⟨_, rfl, h.analogFrontEnd.gotoCode (keepsRun_analogFrontEnd s).seq hc⟩
  | cal => exact ⟨_, rfl, (h.calTick hc).gotoCode (keepsRun_calTick s).seq hc⟩
  | swap =>
    have hswapped : Legal ((snapshotSwap s).emit .timerReset) := { h with }
    exact ⟨_, rfl, hswapped.gotoCode rfl hc⟩
  | drain => exact h.drainStep hc
  | callback => exact ⟨_, rfl, h⟩

/-! ### The invariant: the transactions -/

/-- A push past the depth is lost (47_host_interface.md R368). -/
theorem Legal.fifoPush {s : State} (h : Legal s) (b : Byte) : Legal (s.fifoPush b) := by
  rw [fifoPush_eq]
  split
  · next hroom =>
    have hlen : (s.ports.rxFifo ++ [b]).length ≤ s.cfg.rxFifoDepth := by simpa using hroom
    exact { h with fifo := hlen }
  · exact h

/-- A session is started from STOP only, with reception not yet suspended (47_host_interface.md R363). -/
theorem Legal.writeCalStart {s : State} (h : Legal s) (v : W32) : Legal (writeCalStart v s) := by
  have hstop : CalphCode.stop ∉ suspendedPhases := by decide
  have hstart : CalphCode.start ∉ suspendedPhases := by decide
  rw [writeCalStart_eq]
  split
  · next hwrite =>
    have henabled : ¬ s.rxEnabled = false := fun hoff => hstop (hwrite.2 ▸ h.session.1 hoff)
    exact { h with session := iff_of_false henabled hstart }
  · exact h

theorem Legal.writeReg {s : State} (h : Legal s) (r : Reg) (v : W32) : Legal (writeReg r v s) := by
  cases r with
  | cmdCalStart => exact h.writeCalStart v
  | cmdResetLast | rxReady =>
    simp only [Machine.writeReg, writeResetLast, writeRxReady]
    split
    · exact { h with }
    · exact { h with }
  | _ => exact { h with }

theorem Legal.regWrite {s : State} (h : Legal s) (a : Byte) (v : W32) : Legal (regWrite a v s) := by
  cases hr : regAt a with
  | none =>
    rw [regWrite_of_reserved hr]
    exact h
  | some r =>
    rw [regWrite_of_regAt hr]
    exact h.writeReg r v

/-- Every transaction completes and keeps the invariant (60_exceptions.md R380). -/
theorem Legal.exec_txn {s : State} (h : Legal s) {op ai : Byte} {data : W32} {i : Instr} (hrow : TxnRow op ai data i) :
    ∃ t, exec i s = .next t ∧ Legal t := by
  cases hrow with
  | reset => exact ⟨_, exec_reset s, legal_afterReset h.params⟩
  | timer | adcdone => exact ⟨_, rfl, { h with }⟩
  | rxb b => exact ⟨_, rfl, { h.fifoPush b with }⟩
  | enc k w =>
    simp only [exec, execEnc]
    split
    · exact ⟨_, rfl, { h with }⟩
    · exact ⟨_, rfl, h⟩
  | adc c v =>
    simp only [exec, execAdc]
    split
    · exact ⟨_, rfl, { h with }⟩
    · exact ⟨_, rfl, h⟩
  | wr a v =>
    refine ⟨_, rfl, ?_⟩
    split
    · exact h.regWrite _ _
    · exact h
  | rd a =>
    refine ⟨_, rfl, ?_⟩
    split
    · exact { h with }
    · exact h
  | hdone =>
    refine ⟨_, rfl, ?_⟩
    split
    · next hc => exact h.leaveCallback hc
    · exact h
  | step => exact h.microOp rfl

/-- Settles O43: with no word the state stays, a malformed word is consumed, and a well-formed one is a transaction
(`Legal.exec_txn`). -/
theorem everyStepKeepsTheInvariant : Obligations.EveryStepKeepsTheInvariant := by
  intro s h
  cases htxns : s.txns with
  | nil => exact ⟨s, step_of_txns_nil h.params htxns, h⟩
  | cons w rest =>
    have hconsumed : Legal { s with txns := rest } := { h with }
    by_cases hw : TxnWellFormed w
    · obtain ⟨i, hdecode⟩ := (transactionDecodesIffWellFormed w).2 hw
      obtain ⟨-, hrow⟩ := txnRow_of_decodeTxn hdecode
      rw [stepRunsTheDecodedInstruction s w rest i h.params htxns hdecode]
      exact hconsumed.exec_txn hrow
    · exact ⟨_, step_of_not_wellFormed h.params htxns hw, hconsumed⟩

end Sys2Proof.Machine

/-! Settling the derating laws of the family 45_analog_derating.md (R314, R315, with the table of 00_scope.md R19). -/

namespace Sys2Proof

/-! ### The index into the table -/

/-- What a valid parameter set says of the derating range and the length of the table (00_scope.md R11, R19). -/
structure Config.DerateRange (c : Config) : Prop where
  lo_lt_hi : c.vLo < c.vHi
  step_pos : 0 < c.vStep
  length   : (c.derateTable.length : Int) = (c.vHi - c.vLo + c.vStep - 1) / c.vStep

theorem derateRange_of_valid {c : Config} (h : c.valid = true) : c.DerateRange := by
  simp only [Config.valid, Config.constraintsOk, Bool.and_eq_true, decide_eq_true_eq] at h
  constructor <;> tauto

/-- From V_LO on the quotient is not negative, so truncating it is taking its floor. -/
theorem tdiv_sub_vLo {c : Config} {v : Int} (h : c.vLo ≤ v) : tdiv (v - c.vLo) c.vStep = (v - c.vLo) / c.vStep :=
  Int.tdiv_eq_ediv_of_nonneg (sub_nonneg.2 h)

/-- The table has an entry for every voltage between V_LO and V_HI (45_analog_derating.md R314). -/
theorem derateIndex_lt_length {c : Config} (hc : c.DerateRange) {v : Int} (hlo : c.vLo ≤ v) (hhi : v < c.vHi) :
    ((v - c.vLo) / c.vStep).toNat < c.derateTable.length := by
  have hstep := hc.step_pos
  have hlt : (v - c.vLo) / c.vStep < c.derateTable.length := by
    calc (v - c.vLo) / c.vStep < (v - c.vLo) / c.vStep + 1 := Int.lt_succ _
      _ = (v - c.vLo + 1 * c.vStep) / c.vStep := (Int.add_mul_ediv_right _ 1 hstep.ne').symm
      _ ≤ (c.vHi - c.vLo + c.vStep - 1) / c.vStep := Int.ediv_le_ediv hstep (by omega)
      _ = c.derateTable.length := hc.length.symm
  have hnonneg : 0 ≤ (v - c.vLo) / c.vStep := Int.ediv_nonneg (sub_nonneg.2 hlo) hstep.le
  omega

theorem derateIndex_mono {c : Config} (hc : c.DerateRange) {v w : Int} (h : v ≤ w) :
    ((v - c.vLo) / c.vStep).toNat ≤ ((w - c.vLo) / c.vStep).toNat :=
  Int.toNat_le_toNat (Int.ediv_le_ediv hc.step_pos (sub_le_sub_right h _))

/-! ### The lookup -/

/-- A checked table, read as 0 past its end, never rises with the index (00_scope.md R19). -/
theorem derateTableOk_antitone {l : List Byte} (h : derateTableOk l = true) :
    Antitone fun i => (l.getD i 0).toNat := by
  obtain ⟨-, hadjacent⟩ := (derateTableOk_iff l).1 h
  refine antitone_nat_of_succ_le fun i => ?_
  by_cases hi : i + 1 < l.length
  · have hprev : i < l.length := by omega
    rw [List.getD_eq_getElem l 0 hi, List.getD_eq_getElem l 0 hprev]
    exact hadjacent i _ _ (List.getElem?_eq_getElem hprev) (List.getElem?_eq_getElem hi)
  · rw [List.getD_eq_default l 0 (not_lt.1 hi)]
    exact Nat.zero_le _

theorem derate_between {c : Config} {v : Int} (hlo : c.vLo ≤ v) (hhi : v < c.vHi) :
    derate c v = c.derateTable.getD ((v - c.vLo) / c.vStep).toNat 0 := by
  rw [derate, if_neg (not_le.2 hhi), if_neg (not_lt.2 hlo), tdiv_sub_vLo hlo]

theorem getElem?_derateIndex {c : Config} (hc : c.DerateRange) {v : Int} (hlo : c.vLo ≤ v) (hhi : v < c.vHi) :
    c.derateTable[((v - c.vLo) / c.vStep).toNat]? = some (derate c v) := by
  have hindex := derateIndex_lt_length hc hlo hhi
  rw [derate_between hlo hhi, List.getD_eq_getElem _ 0 hindex, List.getElem?_eq_getElem hindex]

/-- The derating never rises with the voltage (45_analog_derating.md R315): from V_HI on it is 0, below V_LO it is the most
there is, and between them the table decides. -/
theorem derate_antitone {c : Config} (hvalid : c.valid = true) : Antitone fun v => (derate c v).toNat := by
  have htable := (bounds_of_valid hvalid).derate
  have hrange := derateRange_of_valid hvalid
  intro v w hvw
  show (derate c w).toNat ≤ (derate c v).toNat
  rcases le_or_gt c.vHi w with hw | hw
  · rw [derate_above hw]
    exact Nat.zero_le _
  · have hv : v < c.vHi := hvw.trans_lt hw
    rcases lt_or_ge v c.vLo with hlow | hlo
    · rw [derate_below hv hlow]
      exact derate_le htable w
    · rw [derate_between hlo hv, derate_between (hlo.trans hvw) hw]
      exact derateTableOk_antitone htable (derateIndex_mono hrange hvw)

end Sys2Proof

namespace Sys2Proof.Machine

open Sys2Proof

/-- Settles O56: one lemma for each range of the voltage, the bound of the table's entries, and `derate_antitone`. -/
theorem deratingLaws : Obligations.DeratingLaws := by
  intro c hvalid
  have hrange := derateRange_of_valid hvalid
  refine ⟨fun v hlow => ?_, fun v hhigh => derate_above hhigh, fun v hlo hhi => getElem?_derateIndex hrange hlo hhi,
    derate_le (bounds_of_valid hvalid).derate, fun v w hvw => derate_antitone hvalid hvw⟩
  exact derate_below (hlow.trans hrange.lo_lt_hi) hlow

end Sys2Proof.Machine
